-- ==== Sys2Proof/Word.lean ====
section
/-! DEFINITION. The word types of the block: bytes, the 64-bit command word, and the field widths the spec names. -/

namespace Sys2Proof

/-- A byte, 8 bits, unsigned (00_scope R9). -/
abbrev Byte := BitVec 8

/-- A command word `CMD64`, 64 bits (30_encoding R80). -/
abbrev CmdWord := BitVec 64

/-- A locomotive address, u14 (10_state R33). -/
abbrev LocoAddr := BitVec 14

/-- A `cv_address`, the 0-based CV number, u10 (30_encoding R81). -/
abbrev CvAddr := BitVec 10

/-- A register index 0..7, the register number minus 1, u3 (30_encoding R81). -/
abbrev RegIdx := BitVec 3

/-- A bit position 0..7 (30_encoding R83). -/
abbrev BitPos := BitVec 3

/-- A reading of the millisecond clock, u32 (10_state R28). -/
abbrev Millis := BitVec 32

/-- The response register, u24 (10_state R37). -/
abbrev Response := BitVec 24

end Sys2Proof
end

