-- ==== Sys2Proof/Syntax.lean ====
section
/-! DEFINITION. The syntax of a command: one constructor per row of spec/opcode_table.json (30_encoding R84), with the
operands already assembled as 30_encoding R81 says. -/

namespace Sys2Proof

/-- A host command. A `CvAddr` operand is the user's CV number minus 1 and a `RegIdx` operand the user's register
number minus 1 (30_encoding R81). -/
inductive Instr where
  /-- 0x01 `LOCO_SPEED`, 42_organizer R204. -/
  | locoSpeed (addr : LocoAddr) (speed : Byte)
  /-- 0x02 `LOCO_FGRP1`, 42_organizer R205: bit 0 is F0, bits 4..1 are F4..F1. -/
  | locoFgrp1 (addr : LocoAddr) (funcs : BitVec 5)
  /-- 0x03 `LOCO_FGRP2`, 42_organizer R205: F8..F5. -/
  | locoFgrp2 (addr : LocoAddr) (funcs : BitVec 4)
  /-- 0x04 `LOCO_FGRP3`, 42_organizer R205: F12..F9. -/
  | locoFgrp3 (addr : LocoAddr) (funcs : BitVec 4)
  /-- 0x05 `LOCO_FGRP4`, 42_organizer R205: F20..F13. -/
  | locoFgrp4 (addr : LocoAddr) (funcs : Byte)
  /-- 0x06 `LOCO_FGRP5`, 42_organizer R205: F28..F21. -/
  | locoFgrp5 (addr : LocoAddr) (funcs : Byte)
  /-- 0x07 `LOCO_FORGET`, 42_organizer R206. -/
  | locoForget (addr : LocoAddr)
  /-- 0x08 `BCAST_STOP`, 42_organizer R207. -/
  | bcastStop (emerg : Bool)
  /-- 0x10 `ACC_BASIC`, 42_organizer R208. -/
  | accBasic (addr : BitVec 12) (act : Bool)
  /-- 0x11 `ACC_EXT`, 42_organizer R208. -/
  | accExt (addr : BitVec 11) (aspect : BitVec 5)
  /-- 0x18 `POM_LOCO_WRBYTE`, 42_organizer R209. -/
  | pomLocoWrbyte (addr : LocoAddr) (cva : CvAddr) (data : Byte)
  /-- 0x19 `POM_LOCO_WRBIT`, 42_organizer R209. -/
  | pomLocoWrbit (addr : LocoAddr) (cva : CvAddr) (bit : BitPos) (val : Bool)
  /-- 0x1A `POM_LOCO_VERIFY`, 42_organizer R209. -/
  | pomLocoVerify (addr : LocoAddr) (cva : CvAddr) (data : Byte)
  /-- 0x1B `POM_ACC_WRBYTE`, 42_organizer R209. -/
  | pomAccWrbyte (dec : BitVec 9) (cva : CvAddr) (data : Byte)
  /-- 0x20 `FAST_CLOCK`, 42_organizer R209. -/
  | fastClock (min : BitVec 6) (hour : BitVec 5) (wday : BitVec 3) (ratio : BitVec 6)
  /-- 0x28 `QUERY_READY`, 42_organizer R216. -/
  | queryReady
  /-- 0x29 `FIND_ACTIVE`, 42_organizer R217. -/
  | findActive (addr : LocoAddr)
  /-- 0x2A `NEXT_ACTIVE`, 42_organizer R217 (address 0 allowed). -/
  | nextActive (addr : LocoAddr)
  /-- 0x2B `PREV_ACTIVE`, 42_organizer R217 (address 0 allowed). -/
  | prevActive (addr : LocoAddr)
  /-- 0x40 `PROG_REG_READ`, 43_programmer R261 and R280. -/
  | progRegRead (reg : RegIdx)
  /-- 0x41 `PROG_REG_WRITE`, 43_programmer R261 and R280. -/
  | progRegWrite (reg : RegIdx) (data : Byte)
  /-- 0x42 `PROG_PAGED_READ`, 43_programmer R261 and R281. -/
  | progPagedRead (cva : CvAddr)
  /-- 0x43 `PROG_PAGED_WRITE`, 43_programmer R261 and R281. -/
  | progPagedWrite (cva : CvAddr) (data : Byte)
  /-- 0x44 `PROG_DIRECT_READ`, 43_programmer R261 and R282. -/
  | progDirectRead (cva : CvAddr)
  /-- 0x45 `PROG_DIRECT_WRITE`, 43_programmer R261 and R282. -/
  | progDirectWrite (cva : CvAddr) (data : Byte)
  /-- 0x46 `PROG_DIRECT_BIT_WRITE`, 43_programmer R261 and R283. -/
  | progDirectBitWrite (cva : CvAddr) (bit : BitPos) (val : Bool)
  /-- 0x47 `PROG_DIRECT_BIT_VERIFY`, 43_programmer R261 and R283. -/
  | progDirectBitVerify (cva : CvAddr) (bit : BitPos) (val : Bool)
  /-- 0x48 `PROG_LONGADDR_READ`, 43_programmer R261 and R284. -/
  | progLongaddrRead
  /-- 0x49 `PROG_LONGADDR_WRITE`, 43_programmer R261 and R285. -/
  | progLongaddrWrite (addr : LocoAddr)
  /-- 0x4A `PROG_QUERY_BITCAP`, 43_programmer R261 and R286. -/
  | progQueryBitcap
  /-- 0x4B `PROG_TERMINATE`, 43_programmer R287. -/
  | progTerminate
  /-- 0x4C `PROG_STATUS`, 43_programmer R288. -/
  | progStatus
  /-- 0x4D `PROG_VALUE`, 43_programmer R288. -/
  | progValue
  deriving DecidableEq, Repr

/-- The 33 opcodes of 30_encoding R84, in the table's order. -/
inductive Op where
  | locoSpeed | locoFgrp1 | locoFgrp2 | locoFgrp3 | locoFgrp4 | locoFgrp5 | locoForget | bcastStop
  | accBasic | accExt
  | pomLocoWrbyte | pomLocoWrbit | pomLocoVerify | pomAccWrbyte
  | fastClock
  | queryReady | findActive | nextActive | prevActive
  | progRegRead | progRegWrite | progPagedRead | progPagedWrite | progDirectRead | progDirectWrite
  | progDirectBitWrite | progDirectBitVerify | progLongaddrRead | progLongaddrWrite | progQueryBitcap
  | progTerminate | progStatus | progValue
  deriving DecidableEq, Repr

/-- The six fields of a command word (30_encoding R80). -/
structure CmdFields where
  op : Byte
  addr : BitVec 16
  cv : BitVec 16
  data : Byte
  aux : Byte
  rsv : Byte
  deriving DecidableEq, Repr

/-- Why a word spells no command, in the order of the checks of 30_encoding R86. The reason is not observable: every
illegal word gets the same response (30_encoding R85). -/
inductive Illegal where
  /-- `OP` is not an opcode, or is `LOCO_FGRP4`/`LOCO_FGRP5` without `EXT_FUNCS`. -/
  | opcode
  /-- `RSV` is not 0. -/
  | rsv
  /-- A field the operation does not use is not 0. -/
  | unused
  /-- A used field is outside its range (30_encoding R83). -/
  | range
  deriving DecidableEq, Repr

/-- What decoding answers (30_encoding R86): a command, or `ILLEGAL` with the first failing check. -/
inductive Decoded where
  | ok (i : Instr)
  | illegal (why : Illegal)
  deriving DecidableEq, Repr

/-- The operand names of the command syntax (30_encoding R87), and `dir` of the pseudo-commands (R88). -/
inductive OperandName where
  | addr | cv | data | bit | val | act | emerg | speed | aspect | reg | min | hour | wday | ratio | dir
  deriving DecidableEq, Repr

end Sys2Proof
end

