-- ==== Sys2Proof/WellFormed.lean ====
section
/-! DEFINITION. Which commands a legal word can spell: the operand ranges of 30_encoding R83 that the operand's width does
not already impose, and the option `EXT_FUNCS` (30_encoding R84). -/

namespace Sys2Proof

/-- A locomotive address 1..10239 (30_encoding R83). -/
def LocoAddr.legal (a : LocoAddr) : Bool :=
  decide (1 ≤ a.toNat) && decide (a.toNat ≤ 10239)

/-- The command is one some legal word spells, where `ext` is the parameter `EXT_FUNCS` (30_encoding R83, R84). Every
other operand's range is its width: CV 1..1024 is a `CvAddr`, register 1..8 a `RegIdx`, basic accessory 0..4095 twelve
bits, extended accessory 0..2047 eleven, accessory decoder 0..511 nine, ratio 0..63 six. -/
def Instr.wellFormed (ext : Bool) : Instr → Bool
  | .locoSpeed a _ => LocoAddr.legal a
  | .locoFgrp1 a _ => LocoAddr.legal a
  | .locoFgrp2 a _ => LocoAddr.legal a
  | .locoFgrp3 a _ => LocoAddr.legal a
  | .locoFgrp4 a _ => ext && LocoAddr.legal a
  | .locoFgrp5 a _ => ext && LocoAddr.legal a
  | .locoForget a => LocoAddr.legal a
  | .bcastStop _ => true
  | .accBasic _ _ => true
  | .accExt _ _ => true
  | .pomLocoWrbyte a _ _ => LocoAddr.legal a
  | .pomLocoWrbit a _ _ _ => LocoAddr.legal a
  | .pomLocoVerify a _ _ => LocoAddr.legal a
  | .pomAccWrbyte _ _ _ => true
  | .fastClock mn h wd _ => decide (mn.toNat ≤ 59) && decide (h.toNat ≤ 23) && decide (wd.toNat ≤ 6)
  | .queryReady => true
  | .findActive a => LocoAddr.legal a
  | .nextActive a => decide (a.toNat ≤ 10239)
  | .prevActive a => decide (a.toNat ≤ 10239)
  | .progRegRead _ => true
  | .progRegWrite _ _ => true
  | .progPagedRead _ => true
  | .progPagedWrite _ _ => true
  | .progDirectRead _ => true
  | .progDirectWrite _ _ => true
  | .progDirectBitWrite _ _ _ => true
  | .progDirectBitVerify _ _ _ => true
  | .progLongaddrRead => true
  | .progLongaddrWrite a => LocoAddr.legal a
  | .progQueryBitcap => true
  | .progTerminate => true
  | .progStatus => true
  | .progValue => true

end Sys2Proof
end

