-- ==== Sys2Proof/Decode.lean ====
section
/-! DEFINITION. Decoding (30_encoding R80 to R86) and the encoder. Decoding is total on 64-bit words: a command or
`ILLEGAL`. -/

namespace Sys2Proof

/-! ## Fields of a word -/

/-- The fields of a word: OP 63:56, ADDR 55:40, CV 39:24, DATA 23:16, AUX 15:8, RSV 7:0 (30_encoding R80). -/
def fieldsOf (w : CmdWord) : CmdFields where
  op := w.extractLsb' 56 8
  addr := w.extractLsb' 40 16
  cv := w.extractLsb' 24 16
  data := w.extractLsb' 16 8
  aux := w.extractLsb' 8 8
  rsv := w.extractLsb' 0 8

/-- The word with given fields, `{OP, ADDR, CV, DATA, AUX, RSV}` (30_encoding R80). -/
def wordOf (f : CmdFields) : CmdWord :=
  (f.op ++ f.addr ++ f.cv ++ f.data ++ f.aux ++ f.rsv : BitVec 64)

/-! ## Opcodes -/

/-- The opcode numbers of 30_encoding R84. -/
def Op.code : Op → Byte
  | .locoSpeed => 0x01
  | .locoFgrp1 => 0x02
  | .locoFgrp2 => 0x03
  | .locoFgrp3 => 0x04
  | .locoFgrp4 => 0x05
  | .locoFgrp5 => 0x06
  | .locoForget => 0x07
  | .bcastStop => 0x08
  | .accBasic => 0x10
  | .accExt => 0x11
  | .pomLocoWrbyte => 0x18
  | .pomLocoWrbit => 0x19
  | .pomLocoVerify => 0x1A
  | .pomAccWrbyte => 0x1B
  | .fastClock => 0x20
  | .queryReady => 0x28
  | .findActive => 0x29
  | .nextActive => 0x2A
  | .prevActive => 0x2B
  | .progRegRead => 0x40
  | .progRegWrite => 0x41
  | .progPagedRead => 0x42
  | .progPagedWrite => 0x43
  | .progDirectRead => 0x44
  | .progDirectWrite => 0x45
  | .progDirectBitWrite => 0x46
  | .progDirectBitVerify => 0x47
  | .progLongaddrRead => 0x48
  | .progLongaddrWrite => 0x49
  | .progQueryBitcap => 0x4A
  | .progTerminate => 0x4B
  | .progStatus => 0x4C
  | .progValue => 0x4D

/-- All opcodes, in the order of 30_encoding R84. -/
def Op.all : List Op :=
  [.locoSpeed, .locoFgrp1, .locoFgrp2, .locoFgrp3, .locoFgrp4, .locoFgrp5, .locoForget, .bcastStop,
   .accBasic, .accExt, .pomLocoWrbyte, .pomLocoWrbit, .pomLocoVerify, .pomAccWrbyte, .fastClock,
   .queryReady, .findActive, .nextActive, .prevActive,
   .progRegRead, .progRegWrite, .progPagedRead, .progPagedWrite, .progDirectRead, .progDirectWrite,
   .progDirectBitWrite, .progDirectBitVerify, .progLongaddrRead, .progLongaddrWrite, .progQueryBitcap,
   .progTerminate, .progStatus, .progValue]

/-- The opcode a byte spells, if any (30_encoding R84, R85). -/
def Op.ofCode (c : Byte) : Option Op :=
  Op.all.find? fun o => o.code == c

/-- The opcode exists only with `EXT_FUNCS` (30_encoding R84; 93_implementation_defined I12). -/
def Op.needsExt : Op → Bool
  | .locoFgrp4 | .locoFgrp5 => true
  | _ => false

/-- The operation uses `ADDR` (30_encoding R84, column "fields used"). -/
def Op.usesAddr : Op → Bool
  | .bcastStop | .queryReady | .progPagedRead | .progPagedWrite | .progDirectRead | .progDirectWrite => false
  | .progDirectBitWrite | .progDirectBitVerify | .progLongaddrRead | .progQueryBitcap => false
  | .progTerminate | .progStatus | .progValue => false
  | _ => true

/-- The operation uses `CV` (30_encoding R84). -/
def Op.usesCv : Op → Bool
  | .pomLocoWrbyte | .pomLocoWrbit | .pomLocoVerify | .pomAccWrbyte => true
  | .progPagedRead | .progPagedWrite | .progDirectRead | .progDirectWrite => true
  | .progDirectBitWrite | .progDirectBitVerify => true
  | _ => false

/-- The operation uses `DATA` (30_encoding R84). -/
def Op.usesData : Op → Bool
  | .locoSpeed | .locoFgrp1 | .locoFgrp2 | .locoFgrp3 | .locoFgrp4 | .locoFgrp5 | .accExt => true
  | .pomLocoWrbyte | .pomLocoVerify | .pomAccWrbyte | .fastClock => true
  | .progRegWrite | .progPagedWrite | .progDirectWrite => true
  | _ => false

/-- The operation uses `AUX` (30_encoding R84). -/
def Op.usesAux : Op → Bool
  | .bcastStop | .accBasic | .pomLocoWrbit | .fastClock | .progDirectBitWrite | .progDirectBitVerify => true
  | _ => false

/-- Every field the operation does not use is 0 (30_encoding R83). -/
def Op.unusedZero (o : Op) (f : CmdFields) : Bool :=
  (o.usesAddr || f.addr == 0) && (o.usesCv || f.cv == 0) && (o.usesData || f.data == 0) && (o.usesAux || f.aux == 0)

/-! ## Operand assembly and ranges -/

/-- A locomotive address 1..10239 from `ADDR` (30_encoding R83). -/
def locoAddrOf (a : BitVec 16) : Option LocoAddr :=
  if 1 ≤ a.toNat ∧ a.toNat ≤ 10239 then some (a.setWidth 14) else none

/-- A locomotive address or 0 from `ADDR` (30_encoding R84, `NEXT_ACTIVE` and `PREV_ACTIVE`). -/
def locoAddrOrZeroOf (a : BitVec 16) : Option LocoAddr :=
  if a.toNat ≤ 10239 then some (a.setWidth 14) else none

/-- `cv_address = w.CV - 1` for a CV 1..1024 (30_encoding R81, R83). -/
def cvAddrOf (c : BitVec 16) : Option CvAddr :=
  if 1 ≤ c.toNat ∧ c.toNat ≤ 1024 then some ((c - 1).setWidth 10) else none

/-- `reg_index = w.ADDR - 1` for a register 1..8 (30_encoding R81, R83). -/
def regIdxOf (a : BitVec 16) : Option RegIdx :=
  if 1 ≤ a.toNat ∧ a.toNat ≤ 8 then some ((a - 1).setWidth 3) else none

/-- The low `n` bits of a field whose bits above `n` must be 0 (30_encoding R83). -/
def lowBits (n : Nat) {m : Nat} (v : BitVec m) : Option (BitVec n) :=
  if v.toNat < 2 ^ n then some (v.setWidth n) else none

/-- A one-bit operand `AUX[0]` with the bits above it 0 (30_encoding R83, R84). -/
def auxFlag (x : Byte) : Option Bool :=
  (lowBits 1 x).map fun b => b.getLsbD 0

/-- `bitpos = AUX[2:0]` and `bitval = AUX[3]`, the bits above them 0 (30_encoding R81, R83). -/
def auxBit (x : Byte) : Option (BitPos × Bool) :=
  (lowBits 4 x).map fun b => (b.setWidth 3, b.getLsbD 3)

/-- `FAST_CLOCK`: minute in `DATA`, hour in `AUX`, weekday in `ADDR[2:0]`, ratio in `ADDR[15:8]` (30_encoding R84). -/
def fastClockOf (f : CmdFields) : Option Instr :=
  if f.data.toNat ≤ 59 ∧ f.aux.toNat ≤ 23 ∧ (f.addr.extractLsb' 0 8).toNat ≤ 6 ∧ (f.addr.extractLsb' 8 8).toNat ≤ 63 then
    some (.fastClock (f.data.setWidth 6) (f.aux.setWidth 5) (f.addr.setWidth 3) (f.addr.extractLsb' 8 6))
  else none

/-- The command an opcode and its fields spell, or `none` where a used field is out of range (30_encoding R81, R83,
R84). -/
def Op.operands (f : CmdFields) : Op → Option Instr
  | .locoSpeed => do return .locoSpeed (← locoAddrOf f.addr) f.data
  | .locoFgrp1 => do return .locoFgrp1 (← locoAddrOf f.addr) (← lowBits 5 f.data)
  | .locoFgrp2 => do return .locoFgrp2 (← locoAddrOf f.addr) (← lowBits 4 f.data)
  | .locoFgrp3 => do return .locoFgrp3 (← locoAddrOf f.addr) (← lowBits 4 f.data)
  | .locoFgrp4 => do return .locoFgrp4 (← locoAddrOf f.addr) f.data
  | .locoFgrp5 => do return .locoFgrp5 (← locoAddrOf f.addr) f.data
  | .locoForget => do return .locoForget (← locoAddrOf f.addr)
  | .bcastStop => do return .bcastStop (← auxFlag f.aux)
  | .accBasic => do return .accBasic (← lowBits 12 f.addr) (← auxFlag f.aux)
  | .accExt => do return .accExt (← lowBits 11 f.addr) (← lowBits 5 f.data)
  | .pomLocoWrbyte => do return .pomLocoWrbyte (← locoAddrOf f.addr) (← cvAddrOf f.cv) f.data
  | .pomLocoWrbit => do
      let (b, v) ← auxBit f.aux
      return .pomLocoWrbit (← locoAddrOf f.addr) (← cvAddrOf f.cv) b v
  | .pomLocoVerify => do return .pomLocoVerify (← locoAddrOf f.addr) (← cvAddrOf f.cv) f.data
  | .pomAccWrbyte => do return .pomAccWrbyte (← lowBits 9 f.addr) (← cvAddrOf f.cv) f.data
  | .fastClock => fastClockOf f
  | .queryReady => some .queryReady
  | .findActive => do return .findActive (← locoAddrOf f.addr)
  | .nextActive => do return .nextActive (← locoAddrOrZeroOf f.addr)
  | .prevActive => do return .prevActive (← locoAddrOrZeroOf f.addr)
  | .progRegRead => do return .progRegRead (← regIdxOf f.addr)
  | .progRegWrite => do return .progRegWrite (← regIdxOf f.addr) f.data
  | .progPagedRead => do return .progPagedRead (← cvAddrOf f.cv)
  | .progPagedWrite => do return .progPagedWrite (← cvAddrOf f.cv) f.data
  | .progDirectRead => do return .progDirectRead (← cvAddrOf f.cv)
  | .progDirectWrite => do return .progDirectWrite (← cvAddrOf f.cv) f.data
  | .progDirectBitWrite => do
      let (b, v) ← auxBit f.aux
      return .progDirectBitWrite (← cvAddrOf f.cv) b v
  | .progDirectBitVerify => do
      let (b, v) ← auxBit f.aux
      return .progDirectBitVerify (← cvAddrOf f.cv) b v
  | .progLongaddrRead => some .progLongaddrRead
  | .progLongaddrWrite => do return .progLongaddrWrite (← locoAddrOf f.addr)
  | .progQueryBitcap => some .progQueryBitcap
  | .progTerminate => some .progTerminate
  | .progStatus => some .progStatus
  | .progValue => some .progValue

/-- Decoding by fields, with the checks in the order of 30_encoding R86: `OP` known, `RSV = 0`, unused fields zero, used
fields in range. -/
def decodeFields (ext : Bool) (f : CmdFields) : Decoded :=
  match Op.ofCode f.op with
  | none => .illegal .opcode
  | some o =>
    if o.needsExt && !ext then .illegal .opcode
    else if f.rsv != 0 then .illegal .rsv
    else if !o.unusedZero f then .illegal .unused
    else match o.operands f with
      | none => .illegal .range
      | some i => .ok i

/-- Decoding a command word, where `ext` is the parameter `EXT_FUNCS` (30_encoding R86). -/
def decode (ext : Bool) (w : CmdWord) : Decoded :=
  decodeFields ext (fieldsOf w)

/-! ## The encoder -/

/-- The opcode of a command. -/
def Instr.op : Instr → Op
  | .locoSpeed _ _ => .locoSpeed
  | .locoFgrp1 _ _ => .locoFgrp1
  | .locoFgrp2 _ _ => .locoFgrp2
  | .locoFgrp3 _ _ => .locoFgrp3
  | .locoFgrp4 _ _ => .locoFgrp4
  | .locoFgrp5 _ _ => .locoFgrp5
  | .locoForget _ => .locoForget
  | .bcastStop _ => .bcastStop
  | .accBasic _ _ => .accBasic
  | .accExt _ _ => .accExt
  | .pomLocoWrbyte _ _ _ => .pomLocoWrbyte
  | .pomLocoWrbit _ _ _ _ => .pomLocoWrbit
  | .pomLocoVerify _ _ _ => .pomLocoVerify
  | .pomAccWrbyte _ _ _ => .pomAccWrbyte
  | .fastClock _ _ _ _ => .fastClock
  | .queryReady => .queryReady
  | .findActive _ => .findActive
  | .nextActive _ => .nextActive
  | .prevActive _ => .prevActive
  | .progRegRead _ => .progRegRead
  | .progRegWrite _ _ => .progRegWrite
  | .progPagedRead _ => .progPagedRead
  | .progPagedWrite _ _ => .progPagedWrite
  | .progDirectRead _ => .progDirectRead
  | .progDirectWrite _ _ => .progDirectWrite
  | .progDirectBitWrite _ _ _ => .progDirectBitWrite
  | .progDirectBitVerify _ _ _ => .progDirectBitVerify
  | .progLongaddrRead => .progLongaddrRead
  | .progLongaddrWrite _ => .progLongaddrWrite
  | .progQueryBitcap => .progQueryBitcap
  | .progTerminate => .progTerminate
  | .progStatus => .progStatus
  | .progValue => .progValue

/-- `AUX` of a one-bit operand in bit 0. -/
def flagAux (b : Bool) : Byte := (BitVec.ofBool b).setWidth 8

/-- `AUX` of a bit operation: position in bits 2:0, value in bit 3 (30_encoding R81). -/
def bitAux (b : BitPos) (v : Bool) : Byte := (BitVec.ofBool v ++ b : BitVec 4).setWidth 8

/-- The `CV` field of a `cv_address`: the 1-based CV number (30_encoding R81). -/
def cvField (c : CvAddr) : BitVec 16 := c.setWidth 16 + 1

/-- The `ADDR` field of a register index: the 1-based register number (30_encoding R81). -/
def regField (r : RegIdx) : BitVec 16 := r.setWidth 16 + 1

/-- The `ADDR` field of an encoded command (30_encoding R84, letter A). -/
def Instr.addrField : Instr → BitVec 16
  | .locoSpeed a _ | .locoFgrp1 a _ | .locoFgrp2 a _ | .locoFgrp3 a _ | .locoFgrp4 a _ | .locoFgrp5 a _ => a.setWidth 16
  | .locoForget a | .findActive a | .nextActive a | .prevActive a | .progLongaddrWrite a => a.setWidth 16
  | .pomLocoWrbyte a _ _ | .pomLocoWrbit a _ _ _ | .pomLocoVerify a _ _ => a.setWidth 16
  | .accBasic a _ => a.setWidth 16
  | .accExt a _ => a.setWidth 16
  | .pomAccWrbyte d _ _ => d.setWidth 16
  | .fastClock _ _ wd r => (r.setWidth 8 ++ wd.setWidth 8 : BitVec 16)
  | .progRegRead r | .progRegWrite r _ => regField r
  | .bcastStop _ | .queryReady | .progPagedRead _ | .progPagedWrite _ _ | .progDirectRead _ | .progDirectWrite _ _ => 0
  | .progDirectBitWrite _ _ _ | .progDirectBitVerify _ _ _ | .progLongaddrRead | .progQueryBitcap => 0
  | .progTerminate | .progStatus | .progValue => 0

/-- The `CV` field of an encoded command (30_encoding R84, letter C). -/
def Instr.cvFieldOf : Instr → BitVec 16
  | .pomLocoWrbyte _ c _ | .pomLocoWrbit _ c _ _ | .pomLocoVerify _ c _ | .pomAccWrbyte _ c _ => cvField c
  | .progPagedRead c | .progPagedWrite c _ | .progDirectRead c | .progDirectWrite c _ => cvField c
  | .progDirectBitWrite c _ _ | .progDirectBitVerify c _ _ => cvField c
  | .locoSpeed _ _ | .locoFgrp1 _ _ | .locoFgrp2 _ _ | .locoFgrp3 _ _ | .locoFgrp4 _ _ | .locoFgrp5 _ _ => 0
  | .locoForget _ | .bcastStop _ | .accBasic _ _ | .accExt _ _ | .fastClock _ _ _ _ => 0
  | .queryReady | .findActive _ | .nextActive _ | .prevActive _ | .progRegRead _ | .progRegWrite _ _ => 0
  | .progLongaddrRead | .progLongaddrWrite _ | .progQueryBitcap | .progTerminate | .progStatus | .progValue => 0

/-- The `DATA` field of an encoded command (30_encoding R84, letter D). -/
def Instr.dataField : Instr → Byte
  | .locoSpeed _ d | .locoFgrp4 _ d | .locoFgrp5 _ d | .progRegWrite _ d | .progPagedWrite _ d => d
  | .pomLocoWrbyte _ _ d | .pomLocoVerify _ _ d | .pomAccWrbyte _ _ d | .progDirectWrite _ d => d
  | .locoFgrp1 _ d | .accExt _ d => d.setWidth 8
  | .locoFgrp2 _ d | .locoFgrp3 _ d => d.setWidth 8
  | .fastClock mn _ _ _ => mn.setWidth 8
  | .locoForget _ | .bcastStop _ | .accBasic _ _ | .pomLocoWrbit _ _ _ _ => 0
  | .queryReady | .findActive _ | .nextActive _ | .prevActive _ | .progRegRead _ | .progPagedRead _ => 0
  | .progDirectRead _ | .progDirectBitWrite _ _ _ | .progDirectBitVerify _ _ _ => 0
  | .progLongaddrRead | .progLongaddrWrite _ | .progQueryBitcap | .progTerminate | .progStatus | .progValue => 0

/-- The `AUX` field of an encoded command (30_encoding R84, letter X). -/
def Instr.auxField : Instr → Byte
  | .bcastStop b | .accBasic _ b => flagAux b
  | .pomLocoWrbit _ _ b v | .progDirectBitWrite _ b v | .progDirectBitVerify _ b v => bitAux b v
  | .fastClock _ h _ _ => h.setWidth 8
  | .locoSpeed _ _ | .locoFgrp1 _ _ | .locoFgrp2 _ _ | .locoFgrp3 _ _ | .locoFgrp4 _ _ | .locoFgrp5 _ _ => 0
  | .locoForget _ | .accExt _ _ | .pomLocoWrbyte _ _ _ | .pomLocoVerify _ _ _ | .pomAccWrbyte _ _ _ => 0
  | .queryReady | .findActive _ | .nextActive _ | .prevActive _ | .progRegRead _ | .progRegWrite _ _ => 0
  | .progPagedRead _ | .progPagedWrite _ _ | .progDirectRead _ | .progDirectWrite _ _ => 0
  | .progLongaddrRead | .progLongaddrWrite _ | .progQueryBitcap | .progTerminate | .progStatus | .progValue => 0

/-- The fields of the word that spells a command; `RSV` is 0 (30_encoding R80, R83). -/
def Instr.fields (i : Instr) : CmdFields where
  op := i.op.code
  addr := i.addrField
  cv := i.cvFieldOf
  data := i.dataField
  aux := i.auxField
  rsv := 0

/-- The word that spells a command (30_encoding R80, R84). -/
def encode (i : Instr) : CmdWord :=
  wordOf i.fields

/-! ## The host's hooks -/

/-- The command word whose bits, numbered from the least significant bit, are the low `nbits` bits of `w`; a word is
delivered whole (20_memory R62), so no byte order enters. -/
def tableWord (nbits w : Nat) : CmdWord :=
  BitVec.ofNat 64 (w % 2 ^ nbits)

/-- The command the decoder reads from a word of the opcode table, with the default `EXT_FUNCS = true` (00_scope R6). -/
def decodeTableWord (nbits w : Nat) : Option Instr :=
  match decode true (tableWord nbits w) with
  | .ok i => some i
  | .illegal _ => none

end Sys2Proof
end

