-- ==== Sys2Proof/Config.lean ====
section
/-! DEFINITION. What is fixed for a run (the parameters of 00_scope R6, plain data held in State so that every claim is
about every choice of them, R7) and the free values: constants without a body, which nothing can evaluate. -/

namespace Sys2Proof

/-- The run-mode, nine values in the order of 10_state R22. -/
inductive RunMode where
  | runOkay | runStop | runOff | runShort | runPause | progOkay | progShort | progOff | progError
  deriving DecidableEq, Repr

/-- A speed-step format as the format database and `DEFAULT_FORMAT` name it: 14, 27, 28 or 128 steps (00_scope R3). -/
inductive SpeedSteps where
  | steps14 | steps27 | steps28 | steps128
  deriving DecidableEq, Repr

/-- One row of the service-mode cycle-count table `CYC` (43_programmer R262). -/
structure CycRow where
  /-- Resets before the command. -/
  pre : Nat
  /-- Command sends. -/
  cmd : Nat
  /-- Resets after a write. -/
  postWr : Nat
  /-- Resets after a verify. -/
  postVf : Nat
  deriving DecidableEq, Repr

/-- The parameters of 00_scope R6 but the OPEN `FAST_CLOCK_BUILD` (`Config.fastClockPacket` below) and the fixed
`MSG_CAP`, `SIZE_MIN`, `SIZE_MAX` (the type `Payload`, and `sizeMin`, `sizeMax` in Machine/Operands.lean). `REFRESH_LEVELS`
follows from `EXT_FUNCS` (Machine/Operands.lean). -/
structure Params where
  /-- `PREAMBLE_RUN`. -/
  preambleRun : Nat
  /-- `PREAMBLE_PROG`. -/
  preambleProg : Nat
  /-- `CUTOUT_GAP_US`. -/
  cutoutGapUs : Nat
  /-- `T1_HALF_US`. -/
  t1HalfUs : Nat
  /-- `T0_HALF_US`. -/
  t0HalfUs : Nat
  /-- `SMQ_SIZE`, ring slots. -/
  smqSize : Nat
  /-- `HPQ_SIZE`, ring slots. -/
  hpqSize : Nat
  /-- `LPQ_SIZE`, ring slots. -/
  lpqSize : Nat
  /-- `RPT_SIZE`. -/
  rptSize : Nat
  /-- `LOCO_SIZE`. -/
  locoSize : Nat
  /-- `EXT_FUNCS`: F13-F28 supported. -/
  extFuncs : Bool
  /-- `STALE_MAX`. -/
  staleMax : Nat
  /-- `DEFAULT_FORMAT`. -/
  defaultFormat : SpeedSteps
  /-- `REPEAT_SPEED`. -/
  repeatSpeed : Byte
  /-- `REPEAT_FUNC`. -/
  repeatFunc : Byte
  /-- `REPEAT_ACC`. -/
  repeatAcc : Byte
  /-- `REPEAT_PROG`. -/
  repeatProg : Byte
  /-- `FWD_IS_ONE`. -/
  fwdIsOne : Bool
  /-- `LONG_ADDR_MIN`. -/
  longAddrMin : Nat
  /-- `CACHE_EXPIRY_MS`. -/
  cacheExpiryMs : Nat
  /-- `ACK_SAMPLES`. -/
  ackSamples : Nat
  /-- `ACK_THRESHOLD`. -/
  ackThreshold : Nat
  /-- `CYC`, row `PM_DIRECT`. -/
  cycDirect : CycRow
  /-- `CYC`, row `PM_REG`. -/
  cycReg : CycRow
  /-- `PROG_ENTRY_RESETS`. -/
  progEntryResets : Nat
  /-- `DUMMY_ACC_PAYLOAD`, first byte. -/
  dummyAcc0 : Byte
  /-- `DUMMY_ACC_PAYLOAD`, second byte. -/
  dummyAcc1 : Byte
  /-- `INIT_RUN_MODE`. -/
  initRunMode : RunMode
  /-- `LOCO_FORMAT_DB`: the addresses the external database yields a format for (DESIGN CHOICE, log 2: a lookup over
  14-bit addresses is a finite list of pairs; the first pair of an address counts). -/
  locoFormatDb : List (LocoAddr × SpeedSteps)
  deriving DecidableEq, Repr

/-- The defaults of 00_scope R6; the `CYC` rows are those of 43_programmer R262. -/
def Params.default : Params where
  preambleRun := 14
  preambleProg := 20
  cutoutGapUs := 38
  t1HalfUs := 58
  t0HalfUs := 100
  smqSize := 16
  hpqSize := 8
  lpqSize := 16
  rptSize := 8
  locoSize := 32
  extFuncs := true
  staleMax := 200
  defaultFormat := .steps28
  repeatSpeed := 2
  repeatFunc := 2
  repeatAcc := 2
  repeatProg := 2
  fwdIsOne := true
  longAddrMin := 128
  cacheExpiryMs := 500
  ackSamples := 16
  ackThreshold := 12
  cycDirect := { pre := 3, cmd := 5, postWr := 6, postVf := 1 }
  cycReg := { pre := 5, cmd := 7, postWr := 10, postVf := 1 }
  progEntryResets := 20
  dummyAcc0 := 0x80
  dummyAcc1 := 0xF0
  initRunMode := .runOkay
  locoFormatDb := []

/-- The constraints on a `CYC` row: every entry 1..255 and `post_wr >= post_vf` (43_programmer R262). -/
def CycRow.valid (r : CycRow) : Bool :=
  decide (1 ≤ r.pre) && decide (r.pre ≤ 255) && decide (1 ≤ r.cmd) && decide (r.cmd ≤ 255) &&
  decide (1 ≤ r.postWr) && decide (r.postWr ≤ 255) && decide (1 ≤ r.postVf) && decide (r.postVf ≤ 255) &&
  decide (r.postVf ≤ r.postWr)

/-- The stated constraints on the parameters: the preamble minimums (00_scope R6), the `CYC` rows (43_programmer R262)
and the supermajority (43_programmer R266). The others are DEDUCED (log 11): a capacity holds at least one entry, a count
fits the register that holds it (`ENC_CNT`, `repeat` and `MBX_CNT` are u8, `refresh` is u8, the table index is read in 16
bits), and a short address is one byte 0x01..0x7F (41_builders R161). -/
def Params.valid (p : Params) : Bool :=
  decide (14 ≤ p.preambleRun) && decide (p.preambleRun ≤ 256) &&
  decide (20 ≤ p.preambleProg) && decide (p.preambleProg ≤ 256) &&
  decide (2 ≤ p.smqSize) && decide (2 ≤ p.hpqSize) && decide (2 ≤ p.lpqSize) &&
  decide (1 ≤ p.rptSize) && decide (1 ≤ p.locoSize) && decide (p.locoSize ≤ 65536) &&
  decide (p.staleMax ≤ 255) &&
  decide (p.repeatSpeed.toNat ≤ 254) && decide (p.repeatFunc.toNat ≤ 254) &&
  decide (p.repeatAcc.toNat ≤ 254) && decide (p.repeatProg.toNat ≤ 254) &&
  decide (1 ≤ p.longAddrMin) && decide (p.longAddrMin ≤ 128) &&
  decide (p.ackSamples / 2 < p.ackThreshold) && decide (p.ackThreshold ≤ p.ackSamples) &&
  p.cycDirect.valid && p.cycReg.valid &&
  decide (1 ≤ p.progEntryResets) && decide (p.progEntryResets ≤ 255)

/-- A message's payload, `u8[6]` (10_state R24; `MSG_CAP = 6`). -/
structure Payload where
  b0 : Byte
  b1 : Byte
  b2 : Byte
  b3 : Byte
  b4 : Byte
  b5 : Byte
  deriving DecidableEq, Repr, Inhabited

/-- What a packet builder that is an OPEN parameter returns: the size and the payload. -/
structure RawPacket where
  size : BitVec 3
  payload : Payload
  deriving DecidableEq, Repr, Inhabited

/-- One atomic transition of the whole block and its environment (20_memory R66, 00_scope R8). -/
inductive Event where
  /-- The bit timer fires: one `ENC` tick (40_encoder R130). -/
  | encTick
  /-- One `CORE` step (42_organizer R200). -/
  | coreStep
  /-- `HOST` offers a command word on the port `CMD` (10_state R37). -/
  | hostOffer (w : CmdWord)
  /-- The status subsystem writes a code to `RUN_MODE` (10_state R22). -/
  | statusWrite (code : BitVec 4)
  /-- The environment sets `CUTOUT_EN` (10_state R29). -/
  | cutoutInput (en : Bool)
  /-- The environment lets the millisecond clock advance by `ms`; it never runs back (10_state R28). -/
  | clockAdvance (ms : Nat)
  deriving DecidableEq, Repr, Inhabited

/-- FREE VALUE (log 5): size and payload of the OPEN parameter `FAST_CLOCK_BUILD(min, hour, wday, ratio)`
(41_builders R174); `fastClockMsg` keeps the bytes within the size. -/
opaque Config.fastClockPacket : BitVec 6 → BitVec 5 → BitVec 3 → BitVec 6 → RawPacket

/-- FREE VALUE (log 3): the n-th draw of the acknowledgment input that the environment has not settled beforehand
(10_state R27). -/
opaque Config.freeAck : Nat → Bool

/-- FREE VALUE (log 1): the n-th choice of the next atomic transition, where the agenda settles none (20_memory R66). -/
opaque Config.freeEvent : Nat → Event

end Sys2Proof
end

