-- ==== Sys2Proof/Machine/State.lean ====
section
/-! DEFINITION. The state of the block (10_state R20 to R40), the model faults (60_exceptions R321) and the state after
reset (70_reset R350). Plain data throughout. -/

namespace Sys2Proof.Machine

/-! ## Enumerations and records -/

/-- `MsgType` (10_state R23); code 7 is never produced. -/
inductive MsgType where
  | void | stop | loco | acc | accFb | sm | smAck
  deriving DecidableEq, Repr

/-- A message `(repeat, size, type, payload)` (10_state R24). -/
structure Message where
  rep : Byte
  size : BitVec 3
  type : MsgType
  payload : Payload
  deriving DecidableEq, Repr

/-- `MBX_SRC`, the organizer branch that wrote the mailbox (10_state R25). -/
inductive MbxSrc where
  | noSrc | smq | hpq | lpq | rpt | refresh | idle | dummy
  deriving DecidableEq, Repr

/-- `ENC_STATE` (10_state R26). -/
inductive EncState where
  | idle | preamble | byteStart | byte | xor | endBit | cutout1 | cutout2
  deriving DecidableEq, Repr

/-- A line symbol (40_encoder R131, 30_encoding R90). -/
inductive Symbol where
  | one | zero | gap
  deriving DecidableEq, Repr

/-- The encoder's working registers (10_state R26). -/
structure Encoder where
  /-- `ENC_STATE`. -/
  state : EncState
  /-- `ENC_BUF`. -/
  buf : Message
  /-- `ENC_CNT`. -/
  cnt : Byte
  /-- `ENC_IDX`. -/
  idx : BitVec 3
  /-- `ENC_SR`. -/
  sr : Byte
  /-- `ENC_XOR`. -/
  xor : Byte
  /-- `ENC_CUT`. -/
  cut : Bool
  deriving DecidableEq, Repr

/-- A ring queue (10_state R30); its number of slots `N` is the length of `slots`. -/
structure Ring where
  slots : List Message
  rd : Nat
  wr : Nat
  deriving DecidableEq, Repr

/-- An entry of the repeat buffer `RPT` (10_state R32). -/
structure RptEntry where
  msg : Message
  cnt : Byte
  deriving DecidableEq, Repr

/-- The format of a table entry (10_state R33); code 3 is unused and not writable here (93_implementation_defined I7). -/
inductive Format where
  | f14 | f28 | f128
  deriving DecidableEq, Repr

/-- An entry of the locomotive table `LOCO` (10_state R33). -/
structure LocoEntry where
  addr : LocoAddr
  speed : Byte
  format : Format
  active : Bool
  funcs : BitVec 29
  refresh : Byte
  deriving DecidableEq, Repr

/-- `SEQ_STATE` (10_state R36). -/
inductive SeqState where
  | idle | enter | step | exit
  deriving DecidableEq, Repr

/-- The programming tasks, the opcodes 0x40 to 0x4A (43_programmer R261): what `SEQ_OP` holds. -/
inductive TaskOp where
  | regRead | regWrite | pagedRead | pagedWrite | directRead | directWrite | bitWrite | bitVerify
  | longaddrRead | longaddrWrite | queryBitcap
  deriving DecidableEq, Repr

/-- `BYTE_OP` (10_state R36); codes 6 and 7 are unused and not writable here (93_implementation_defined I8). -/
inductive ByteOp where
  | writeByte | scanRead | readDirect | writeBit | verifyBit | capProbe
  deriving DecidableEq, Repr

/-- `BYTE_PH` (10_state R36); code 3 is unused and not writable here (93_implementation_defined I8). -/
inductive BytePhase where
  | cap | bits | scan
  deriving DecidableEq, Repr

/-- `BYTE_MODE` (10_state R36). -/
inductive ByteMode where
  | direct | reg
  deriving DecidableEq, Repr

/-- `BYTE_RES` (10_state R36). -/
inductive ByteRes where
  | ok | noAck | bitErr | noDec
  deriving DecidableEq, Repr

/-- `INNER_STATE` (10_state R36). -/
inductive InnerState where
  | idle | pre | cmd | wait | post | done
  deriving DecidableEq, Repr

/-- `BITCAP` (10_state R36). -/
inductive BitCap where
  | unknown | yes | no
  deriving DecidableEq, Repr

/-- The service-mode programmer's state (10_state R36). -/
structure Programmer where
  /-- `SEQ_STATE`. -/
  seqState : SeqState
  /-- `SEQ_OP`; `none` is the reset value 0, no task's opcode. -/
  seqOp : Option TaskOp
  /-- `SEQ_PC`. -/
  seqPc : BitVec 3
  /-- `SEQ_CV`. -/
  seqCv : CvAddr
  /-- `SEQ_REG`. -/
  seqReg : RegIdx
  /-- `SEQ_DATA`. -/
  seqData : Byte
  /-- `SEQ_BIT`. -/
  seqBit : BitPos
  /-- `SEQ_BITVAL`. -/
  seqBitval : Bool
  /-- `SEQ_ADDR`. -/
  seqAddr : LocoAddr
  /-- `SEQ_TMP`. -/
  seqTmp : Byte
  /-- `PRIOR_MODE`. -/
  priorMode : RunMode
  /-- `SEQ_ENTERED`. -/
  seqEntered : Bool
  /-- `BYTE_STATE`: true is `B_BUSY`. -/
  byteBusy : Bool
  /-- `BYTE_OP`. -/
  byteOp : ByteOp
  /-- `BYTE_PH`. -/
  bytePh : BytePhase
  /-- `BYTE_DONE`. -/
  byteDone : Bool
  /-- `BYTE_MODE`. -/
  byteMode : ByteMode
  /-- `BYTE_TGT`. -/
  byteTgt : CvAddr
  /-- `BYTE_DATA`. -/
  byteData : Byte
  /-- `BYTE_BIT`. -/
  byteBit : BitPos
  /-- `BYTE_BITVAL`. -/
  byteBitval : Bool
  /-- `BYTE_I`. -/
  byteI : BitVec 9
  /-- `BYTE_ACC`. -/
  byteAcc : Byte
  /-- `BYTE_A0`. -/
  byteA0 : Bool
  /-- `BYTE_RES`. -/
  byteRes : ByteRes
  /-- `BYTE_VAL`. -/
  byteVal : Byte
  /-- `INNER_STATE`. -/
  innerState : InnerState
  /-- `INNER_PKT`. -/
  innerPkt : Message
  /-- `INNER_WR`. -/
  innerWr : Bool
  /-- `INNER_ACK`. -/
  innerAck : Bool
  /-- `BITCAP`. -/
  bitcap : BitCap
  /-- `BITCAP_T`. -/
  bitcapT : Millis
  /-- `PAGE_VALID`. -/
  pageValid : Bool
  /-- `PAGE`. -/
  page : Byte
  /-- `PAGE_T`. -/
  pageT : Millis
  /-- `PR_BUSY`. -/
  prBusy : Bool
  /-- `PR_RESULT`. -/
  prResult : Byte
  /-- `PR_VALUE`. -/
  prValue : BitVec 16
  deriving DecidableEq, Repr

/-! ## The state -/

/-- The whole state: every element of 10_state R22 to R38, the output trace of 40_encoder R131, the inputs of R27 to R29
as plain data, and the model's own fields `params`, `agenda`, `ackDraws`, `eventDraws` (logs 1 to 4). -/
structure State where
  /-- The parameters of 00_scope R6, fixed for a run (MODEL's own field, log 2). -/
  params : Params
  /-- `RUN_MODE` (10_state R22). -/
  runMode : RunMode
  /-- `MBX` (10_state R25). -/
  mbx : Message
  /-- `MBX_CNT` (10_state R25). -/
  mbxCnt : Byte
  /-- `MBX_SRC` (10_state R25). -/
  mbxSrc : MbxSrc
  /-- `ENC_*` (10_state R26). -/
  enc : Encoder
  /-- `SMQ` (10_state R31). -/
  smq : Ring
  /-- `HPQ` (10_state R31). -/
  hpq : Ring
  /-- `LPQ` (10_state R31). -/
  lpq : Ring
  /-- `RPT` (10_state R32). -/
  rpt : List RptEntry
  /-- `LOCO` (10_state R33). -/
  loco : List LocoEntry
  /-- `RF_CURSOR` (10_state R34). -/
  rfCursor : Nat
  /-- `RF_LEVEL` (10_state R34). -/
  rfLevel : Nat
  /-- `LAST` (10_state R35). -/
  last : Message
  /-- `LAST_VALID` (10_state R35). -/
  lastValid : Bool
  /-- The programmer (10_state R36). -/
  prog : Programmer
  /-- `CMD`, the word offered and not yet taken (10_state R37). -/
  cmd : Option CmdWord
  /-- `RESP` (10_state R37). -/
  resp : Response
  /-- `TRACK`, the symbols emitted so far, first one first (40_encoder R131). -/
  track : List Symbol
  /-- The input `CUTOUT_EN` (10_state R29). -/
  cutoutEn : Bool
  /-- The input read by `now_ms()` (10_state R28). -/
  clockMs : Millis
  /-- The coming samples of the input `ACK_IN` that the environment has settled, next first (10_state R27, log 3). -/
  ackIn : List Bool
  /-- The coming atomic transitions that are settled, next first (20_memory R66, log 1; MODEL's own field). -/
  agenda : List Event
  /-- How many acknowledgment samples were free draws (MODEL's own field, log 3). -/
  ackDraws : Nat
  /-- How many transitions were free choices (MODEL's own field, log 1). -/
  eventDraws : Nat
  deriving DecidableEq, Repr

/-- Why the whole block stops (60_exceptions R321: a model fault stops every agent). -/
inductive Fault where
  /-- Raised by `dispatch` while `MBX_CNT` is not 0, with the message offered (20_memory R63, 60_exceptions R321). Safe:
  the rules make it unreachable. -/
  | mailboxRace (m : Message)
  /-- Raised by `dispatch` of a message whose size is outside 2..5, with that message (20_memory R63, 60_exceptions R321).
  Safe: only a `FAST_CLOCK_BUILD` that violates its constraint reaches it. -/
  | badSize (m : Message)
  /-- Raised by a write of `RUN_MODE` with a code 9 to 15, with the code (10_state R22, 60_exceptions R321). Safe: an
  environment that keeps 70_reset R353 never causes it. -/
  | badRunMode (code : BitVec 4)
  /-- Raised by the sequence layer in a `SEQ_PC` the running task does not list, with the task and the value
  (93_implementation_defined I9). Safe: the rules never write such a value. -/
  | unlistedSeqPc (op : Option TaskOp) (pc : BitVec 3)
  deriving DecidableEq, Repr

/-- Why a step has no meaning. No arm of `exec` refuses in this model: every command of 30_encoding R84 has its meaning. -/
inductive Refusal where
  /-- Raised by an arm of `exec` for an instruction without a meaning; safe. -/
  | notModelled (mnemonic : String)
  deriving DecidableEq, Repr

/-- What a step of this machine answers. -/
abbrev Result := Host.Outcome State Fault Refusal

/-! ## Reset -/

/-- `IDLE_MSG`, the idle message (41_builders R162). -/
def idleMsg : Message where
  rep := 0
  size := 2
  type := .void
  payload := { b0 := 0xFF, b1 := 0x00, b2 := 0, b3 := 0, b4 := 0, b5 := 0 }

/-- A ring of `n` slots after reset: empty, every slot the idle message (10_state R30). -/
def emptyRing (n : Nat) : Ring where
  slots := List.replicate n idleMsg
  rd := 0
  wr := 0

/-- An empty slot of the locomotive table (10_state R33, column "reset"). -/
def emptyLoco : LocoEntry where
  addr := 0
  speed := 0
  format := .f14
  active := false
  funcs := 0
  refresh := 0

/-- `PR_RESULT = NONE` (10_state R36, 60_exceptions R325). -/
def resultNone : Byte := 0xFF

/-- The programmer after reset (10_state R36, column "reset"). -/
def Programmer.reset : Programmer where
  seqState := .idle
  seqOp := none
  seqPc := 0
  seqCv := 0
  seqReg := 0
  seqData := 0
  seqBit := 0
  seqBitval := false
  seqAddr := 0
  seqTmp := 0
  priorMode := .runOkay
  seqEntered := false
  byteBusy := false
  byteOp := .writeByte
  bytePh := .cap
  byteDone := false
  byteMode := .direct
  byteTgt := 0
  byteData := 0
  byteBit := 0
  byteBitval := false
  byteI := 0
  byteAcc := 0
  byteA0 := false
  byteRes := .ok
  byteVal := 0
  innerState := .idle
  innerPkt := idleMsg
  innerWr := false
  innerAck := false
  bitcap := .unknown
  bitcapT := 0
  pageValid := false
  page := 0
  pageT := 0
  prBusy := false
  prResult := resultNone
  prValue := 0

/-- The encoder after reset (10_state R26, column "reset"). -/
def Encoder.reset : Encoder where
  state := .idle
  buf := idleMsg
  cnt := 0
  idx := 0
  sr := 0
  xor := 0
  cut := false

/-- The state after reset for given parameters (70_reset R350; unique for given parameters). The inputs' first values are
a DESIGN CHOICE that loses nothing, since the environment may change them before the first step (log 4). -/
def State.resetWith (p : Params) : State where
  params := p
  runMode := p.initRunMode
  mbx := idleMsg
  mbxCnt := 0
  mbxSrc := .noSrc
  enc := Encoder.reset
  smq := emptyRing p.smqSize
  hpq := emptyRing p.hpqSize
  lpq := emptyRing p.lpqSize
  rpt := List.replicate p.rptSize { msg := idleMsg, cnt := 0 }
  loco := List.replicate p.locoSize emptyLoco
  rfCursor := 0
  rfLevel := 0
  last := idleMsg
  lastValid := false
  prog := Programmer.reset
  cmd := none
  resp := 0
  track := []
  cutoutEn := false
  clockMs := 0
  ackIn := []
  agenda := []
  ackDraws := 0
  eventDraws := 0

/-- The state after reset with the default parameters (70_reset R350, 00_scope R6). -/
def State.reset : State :=
  State.resetWith Params.default

end Sys2Proof.Machine
end

