-- ==== Sys2Proof/Machine/Operands.lean ====
section
/-! DEFINITION. Every operand form of the block: run-mode codes, message bytes, address bytes, the speed byte, function
groups, CV and accessory address parts, speed conversion, and the key of a message (42_organizer R212). Pure functions. -/

namespace Sys2Proof.Machine

/-! ## Fixed sizes (00_scope R6) -/

/-- `SIZE_MIN` (00_scope R6, 10_state R24). -/
def sizeMin : Nat := 2

/-- `SIZE_MAX` (00_scope R6, 10_state R24, 90_conflicts C1). -/
def sizeMax : Nat := 5

/-- `REFRESH_LEVELS`: 10 with `EXT_FUNCS`, else 6 (00_scope R6). -/
def refreshLevels (p : Params) : Nat := if p.extFuncs then 10 else 6

/-! ## Run-modes (10_state R22) -/

/-- The code of a run-mode (10_state R22). -/
def modeCode : RunMode → BitVec 4
  | .runOkay => 0
  | .runStop => 1
  | .runOff => 2
  | .runShort => 3
  | .runPause => 4
  | .progOkay => 5
  | .progShort => 6
  | .progOff => 7
  | .progError => 8

/-- The run-mode of a code; codes 9 to 15 are illegal (10_state R22). -/
def modeOfCode (c : BitVec 4) : Option RunMode :=
  [.runOkay, .runStop, .runOff, .runShort, .runPause, .progOkay, .progShort, .progOff, .progError][c.toNat]?

/-- A PROG mode: the name starts with `PROG_` (00_scope R13). Every other mode is a RUN mode. -/
def isProg : RunMode → Bool
  | .progOkay | .progShort | .progOff | .progError => true
  | .runOkay | .runStop | .runOff | .runShort | .runPause => false

/-! ## Messages (10_state R24, 00_scope R11) -/

/-- The six payload bytes, first transmitted first. -/
def payloadBytes (p : Payload) : List Byte :=
  [p.b0, p.b1, p.b2, p.b3, p.b4, p.b5]

/-- The payload that holds given bytes; bytes beyond them are 0 (41_builders R160). -/
def payloadOf (l : List Byte) : Payload where
  b0 := l.getD 0 0
  b1 := l.getD 1 0
  b2 := l.getD 2 0
  b3 := l.getD 3 0
  b4 := l.getD 4 0
  b5 := l.getD 5 0

/-- Payload byte `i` (40_encoder R135); there are six, `ENC_IDX` is below the size. -/
def payloadAt (p : Payload) (i : BitVec 3) : Byte :=
  (payloadBytes p).getD i.toNat 0

/-- `bytes(m)`, the meaningful payload bytes (00_scope R11). -/
def msgBytes (m : Message) : List Byte :=
  (payloadBytes m.payload).take m.size.toNat

/-- `cksum(m)`, the exclusive-or of the meaningful bytes (00_scope R11). -/
def cksum (m : Message) : Byte :=
  (msgBytes m).foldl (fun a b => a ^^^ b) 0

/-- `same(m1, m2)`: equal size and equal bytes (00_scope R11). -/
def sameMsg (m1 m2 : Message) : Bool :=
  m1.size == m2.size && msgBytes m1 == msgBytes m2

/-- The size of a message is legal, 2..5 (10_state R24). -/
def sizeOk (m : Message) : Bool :=
  decide (sizeMin ≤ m.size.toNat) && decide (m.size.toNat ≤ sizeMax)

/-- The message with given meaningful bytes; `size` is their number (41_builders R160). -/
def mkMsg (rep : Byte) (type : MsgType) (l : List Byte) : Message where
  rep := rep
  size := BitVec.ofNat 3 l.length
  type := type
  payload := payloadOf l

/-! ## Locomotive addresses and speeds -/

/-- `addr_bytes(a)` (41_builders R161). -/
def addrBytes (p : Params) (a : LocoAddr) : List Byte :=
  if a.toNat < p.longAddrMin then [a.setWidth 8]
  else [0xC0 ||| (a >>> 8).setWidth 8, a.setWidth 8]

/-- The direction bit `s[7]` of an internal speed (00_scope R13, 41_builders R164). -/
def speedDir (s : Byte) : Bool := s.getLsbD 7

/-- The magnitude `s[6:0]` of an internal speed (00_scope R13). -/
def speedMag (s : Byte) : Nat := (s.extractLsb' 0 7).toNat

/-- A bit as a byte, 0 or 1. -/
def bitByte (b : Bool) : Byte := (BitVec.ofBool b).setWidth 8

/-- `to_rail(m, steps)` for 14 or 28 steps (41_builders R165, 90_conflicts C2). -/
def toRail (m steps : Nat) : Nat :=
  if m ≤ 1 then m else min ((m - 2) * steps / 125 + 2) (steps + 1)

/-- `from_rail(r, steps)` for 14 or 28 steps (41_builders R166, 90_conflicts C12). -/
def fromRail (r steps : Nat) : Nat :=
  if r ≤ 1 then r else ((min r (steps + 1) - 2) * 125 + steps - 1) / steps + 2

/-- `from_rail(r, 128)`: `r & 0x7F` (41_builders R166). -/
def fromRail128 (r : Byte) : Byte := r &&& 0x7F

/-- `to_rail(m, 128)`: the magnitude unchanged (41_builders R165). -/
def toRail128 (m : Byte) : Byte := m

/-- The 28-step code `w` of a rail code (41_builders R167). -/
def code28 (r : Nat) : Nat :=
  if r = 0 then 0 else if r = 1 then 2 else r + 2

/-- The format a table entry stores for a step count; 27 maps to F28 (42_organizer R210). -/
def formatOfSteps : SpeedSteps → Format
  | .steps14 => .f14
  | .steps27 => .f28
  | .steps28 => .f28
  | .steps128 => .f128

/-- `fmt_of(a)` (42_organizer R210). -/
def formatOf (p : Params) (a : LocoAddr) : Format :=
  formatOfSteps ((p.locoFormatDb.lookup a).getD p.defaultFormat)

/-! ## Function groups (41_builders R168) -/

/-- The lowest function number of group `g` (41_builders R168). -/
def groupLow : Nat → Nat
  | 1 => 0
  | 2 => 5
  | 3 => 9
  | 4 => 13
  | _ => 21

/-- The number of functions of group `g` (41_builders R168). -/
def groupWidth : Nat → Nat
  | 1 => 5
  | 2 => 4
  | 3 => 4
  | _ => 8

/-- `fgrp_bits(funcs, g)` (41_builders R168), as a byte. -/
def groupBits (funcs : BitVec 29) (g : Nat) : Byte :=
  (funcs >>> groupLow g).setWidth 8 &&& BitVec.ofNat 8 (2 ^ groupWidth g - 1)

/-- `funcs` with the bits of group `g` replaced by `d` (42_organizer R205). -/
def setGroupBits (funcs : BitVec 29) (g : Nat) (d : Byte) : BitVec 29 :=
  let mask := BitVec.ofNat 29 (2 ^ groupWidth g - 1)
  (funcs &&& ~~~(mask <<< groupLow g)) ||| ((d.setWidth 29 &&& mask) <<< groupLow g)

/-! ## CV addresses, accessory addresses, pages -/

/-- `cva >> 8`, the two high bits of a cv_address (41_builders R172). -/
def cvHi (c : CvAddr) : Byte := (c >>> 8).setWidth 8

/-- `cva & 0xFF`, the low byte of a cv_address (41_builders R172). -/
def cvLo (c : CvAddr) : Byte := c.setWidth 8

/-- `0x80 | (dec & 0x3F)`, the first accessory byte (41_builders R169, R170, R173). -/
def accLow (dec : BitVec 9) : Byte := 0x80 ||| (dec.setWidth 8 &&& 0x3F)

/-- `((~(dec >> 6)) & 7) << 4`, the three inverted high address bits (41_builders R169, R170, R173). -/
def accHigh (dec : BitVec 9) : Byte := ((~~~(dec >>> 6)).setWidth 8 &&& 0x7) <<< 4

/-- `page = ((cva >> 2) + 1) & 0xFF` (43_programmer R281). -/
def pageOf (c : CvAddr) : Byte := ((c >>> 2) + 1).setWidth 8

/-- `reg = cva & 3`, the register of a paged access (43_programmer R281). -/
def pageReg (c : CvAddr) : CvAddr := c &&& 3

/-! ## Keys (42_organizer R212) -/

/-- The decoder-addressing class of a key (42_organizer R212). -/
inductive AddrClass where
  | short | long
  deriving DecidableEq, Repr

/-- The command kind of a key (42_organizer R212). -/
inductive CmdKind where
  | speed128 | speed28 | fg1 | fg2 | fg3 | fg4 | fg5
  deriving DecidableEq, Repr

/-- The identity the queues deduplicate on (42_organizer R212). -/
inductive Key where
  /-- Equal only to the key of a message with the same bytes. -/
  | raw (bytes : List Byte)
  | cmd (cls : AddrClass) (id : LocoAddr) (kind : CmdKind)
  deriving DecidableEq, Repr

/-- The command kind of an instruction byte, if it is a speed or function command (42_organizer R212). -/
def kindOf (ins : Byte) : Option CmdKind :=
  if ins = 0x3F then some .speed128
  else if ins.extractLsb' 6 2 = 0b01 then some .speed28
  else if ins.extractLsb' 5 3 = 0b100 then some .fg1
  else if ins.extractLsb' 4 4 = 0b1011 then some .fg2
  else if ins.extractLsb' 4 4 = 0b1010 then some .fg3
  else if ins = 0xDE then some .fg4
  else if ins = 0xDF then some .fg5
  else none

/-- The key of a byte sequence (42_organizer R212). DESIGN CHOICE (log 7), safe: a sequence too short to hold the
instruction byte its class needs is RAW; no builder makes one. -/
def keyOfBytes : List Byte → Key
  | [] => .raw []
  | [b0] => .raw [b0]
  | b0 :: b1 :: rest =>
    if 0x01 ≤ b0.toNat ∧ b0.toNat ≤ 0x7F then
      match kindOf b1 with
      | some k => .cmd .short (b0.setWidth 14) k
      | none => .raw (b0 :: b1 :: rest)
    else if 0xC0 ≤ b0.toNat ∧ b0.toNat ≤ 0xE7 then
      match rest.head?.bind kindOf with
      | some k => .cmd .long (((b0 &&& 0x3F).setWidth 14 <<< 8) ||| b1.setWidth 14) k
      | none => .raw (b0 :: b1 :: rest)
    else .raw (b0 :: b1 :: rest)

/-- `key(m)` (42_organizer R212). -/
def keyOf (m : Message) : Key := keyOfBytes (msgBytes m)

/-- The key is RAW (42_organizer R212). -/
def Key.isRaw : Key → Bool
  | .raw _ => true
  | .cmd _ _ _ => false

end Sys2Proof.Machine
end

