-- ==== Sys2Proof/Machine/Builders.lean ====
section
/-! DEFINITION. The message builders (41_builders R160 to R175): pure functions from semantic commands to messages. -/

namespace Sys2Proof.Machine

/-- `reset_msg(n)` (41_builders R163). -/
def resetMsg (n : Byte) : Message := mkMsg n .sm [0x00, 0x00]

/-- `reset_msg(n - 1)`: a reset sent `n` times (43_programmer R267, R270). -/
def resetTimes (n : Nat) : Message := resetMsg (BitVec.ofNat 8 (n - 1))

/-- `DUMMY_MSG` (42_organizer R223). -/
def dummyMsg (p : Params) : Message := mkMsg 0 .acc [p.dummyAcc0, p.dummyAcc1]

/-- The instruction byte of a 28-step speed message, `0x40 | d<<5 | (w&1)<<4 | w>>1` (41_builders R167). -/
def speedByte28 (s : Byte) : Byte :=
  let w : Byte := BitVec.ofNat 8 (code28 (toRail (speedMag s) 28))
  0x40 ||| (bitByte (speedDir s) <<< 5) ||| ((w &&& 1) <<< 4) ||| (w >>> 1)

/-- The instruction byte of a 14-step speed message, `0x40 | d<<5 | f0<<4 | r` (41_builders R167). -/
def speedByte14 (s : Byte) (f0 : Bool) : Byte :=
  0x40 ||| (bitByte (speedDir s) <<< 5) ||| (bitByte f0 <<< 4) ||| BitVec.ofNat 8 (toRail (speedMag s) 14)

/-- `speed_msg(a, s, fmt, f0)` (41_builders R167). -/
def speedMsg (p : Params) (a : LocoAddr) (s : Byte) (fmt : Format) (f0 : Bool) : Message :=
  match fmt with
  | .f128 => mkMsg p.repeatSpeed .loco (addrBytes p a ++ [0x3F, s])
  | .f28 => mkMsg p.repeatSpeed .loco (addrBytes p a ++ [speedByte28 s])
  | .f14 => mkMsg p.repeatSpeed .loco (addrBytes p a ++ [speedByte14 s f0])

/-- The instruction bytes of function group `g` (41_builders R168). -/
def groupBytes (g : Nat) (funcs : BitVec 29) : List Byte :=
  match g with
  | 1 => [0x80 ||| (bitByte (funcs.getLsbD 0) <<< 4) ||| (funcs.extractLsb' 1 4).setWidth 8]
  | 2 => [0xB0 ||| groupBits funcs 2]
  | 3 => [0xA0 ||| groupBits funcs 3]
  | 4 => [0xDE, groupBits funcs 4]
  | _ => [0xDF, groupBits funcs 5]

/-- `fgrp_msg(a, g, funcs)`, `g` in 1..5 (41_builders R168). -/
def groupMsg (p : Params) (a : LocoAddr) (g : Nat) (funcs : BitVec 29) : Message :=
  mkMsg p.repeatFunc .loco (addrBytes p a ++ groupBytes g funcs)

/-- `acc_msg(x, act)` (41_builders R169). -/
def accMsg (p : Params) (x : BitVec 12) (act : Bool) : Message :=
  let dec : BitVec 9 := (x >>> 3).setWidth 9
  let ddd : Byte := (x &&& 7).setWidth 8
  mkMsg p.repeatAcc .acc [accLow dec, 0x80 ||| accHigh dec ||| (bitByte act <<< 3) ||| ddd]

/-- `xacc_msg(e, asp)` (41_builders R170). -/
def xaccMsg (p : Params) (e : BitVec 11) (asp : BitVec 5) : Message :=
  let dec : BitVec 9 := (e >>> 2).setWidth 9
  let pp : Byte := (e &&& 3).setWidth 8
  mkMsg p.repeatAcc .acc [accLow dec, accHigh dec ||| (pp <<< 1) ||| 0x01, asp.setWidth 8]

/-- `stop_msg(e)` (41_builders R171). -/
def stopMsg (p : Params) (e : Bool) : Message :=
  mkMsg p.repeatSpeed .stop [0x00, 0x40 ||| bitByte e]

/-- The last byte of a program-on-main or service-mode bit packet, `base | v<<3 | b` (41_builders R172, R175). -/
def bitData (base : Byte) (v : Bool) (b : BitPos) : Byte :=
  base ||| (bitByte v <<< 3) ||| b.setWidth 8

/-- Program-on-main write byte (41_builders R172). -/
def pomWriteMsg (p : Params) (a : LocoAddr) (c : CvAddr) (d : Byte) : Message :=
  mkMsg p.repeatProg .loco (addrBytes p a ++ [0xEC ||| cvHi c, cvLo c, d])

/-- Program-on-main verify byte (41_builders R172). -/
def pomVerifyMsg (p : Params) (a : LocoAddr) (c : CvAddr) (d : Byte) : Message :=
  mkMsg p.repeatProg .loco (addrBytes p a ++ [0xE4 ||| cvHi c, cvLo c, d])

/-- Program-on-main write bit (41_builders R172). -/
def pomBitMsg (p : Params) (a : LocoAddr) (c : CvAddr) (b : BitPos) (v : Bool) : Message :=
  mkMsg p.repeatProg .loco (addrBytes p a ++ [0xE8 ||| cvHi c, cvLo c, bitData 0xF0 v b])

/-- Program-on-main accessory byte write (41_builders R173). -/
def pomAccMsg (p : Params) (dec : BitVec 9) (c : CvAddr) (d : Byte) : Message :=
  mkMsg p.repeatProg .acc [accLow dec, 0x80 ||| accHigh dec, 0xEC ||| cvHi c, cvLo c, d]

/-- `fast_clock_msg(min, hour, wday, ratio)` (41_builders R174): the OPEN builder's size and meaningful bytes are a free
value (log 5), its type `VOID` and repeat `REPEAT_ACC` are what the rule requires of it, and the bytes beyond the size are
0 as in every built message (R160). -/
def fastClockMsg (p : Params) (mn : BitVec 6) (h : BitVec 5) (wd : BitVec 3) (r : BitVec 6) : Message where
  rep := p.repeatAcc
  size := (Config.fastClockPacket mn h wd r).size
  type := .void
  payload := payloadOf ((payloadBytes (Config.fastClockPacket mn h wd r).payload).take
    (Config.fastClockPacket mn h wd r).size.toNat)

/-! ## Service-mode packets (41_builders R175) -/

/-- `sm_verify_byte(cva, d)`. -/
def smVerifyByte (c : CvAddr) (d : Byte) : Message := mkMsg 0 .smAck [0x74 ||| cvHi c, cvLo c, d]

/-- `sm_write_byte(cva, d)`. -/
def smWriteByte (c : CvAddr) (d : Byte) : Message := mkMsg 0 .smAck [0x7C ||| cvHi c, cvLo c, d]

/-- `sm_verify_bit(cva, b, v)`. -/
def smVerifyBit (c : CvAddr) (b : BitPos) (v : Bool) : Message :=
  mkMsg 0 .smAck [0x78 ||| cvHi c, cvLo c, bitData 0xE0 v b]

/-- `sm_write_bit(cva, b, v)`. -/
def smWriteBit (c : CvAddr) (b : BitPos) (v : Bool) : Message :=
  mkMsg 0 .smAck [0x78 ||| cvHi c, cvLo c, bitData 0xF0 v b]

/-- `sm_reg_verify(r, d)`. -/
def smRegVerify (r : RegIdx) (d : Byte) : Message := mkMsg 0 .smAck [0x70 ||| r.setWidth 8, d]

/-- `sm_reg_write(r, d)`. -/
def smRegWrite (r : RegIdx) (d : Byte) : Message := mkMsg 0 .smAck [0x78 ||| r.setWidth 8, d]

end Sys2Proof.Machine
end

