-- ==== Sys2Proof/Machine/Flags.lean ====
section
/-! DEFINITION. The response register and the block's only condition flags, the enqueue result (10_state R37, R38;
30_encoding R82; 42_organizer R215). -/

namespace Sys2Proof.Machine

/-- The enqueue result of a command, computed afresh by each (10_state R38). -/
structure OrgFlags where
  /-- `ORG_NEW`, bit 0: the table entry was created. -/
  new : Bool
  /-- `ORG_HP`, bit 1: also pushed (or tried) to `HPQ`. -/
  hp : Bool
  /-- `ORG_FULL`, bit 2: a push the command attempted found its queue full. -/
  full : Bool
  deriving DecidableEq, Repr

/-- The status byte of an enqueue, `ORG_FLAGS` 0x00 to 0x07 (30_encoding R82, 10_state R38). -/
def OrgFlags.status (f : OrgFlags) : Byte :=
  (BitVec.ofBool f.full ++ BitVec.ofBool f.hp ++ BitVec.ofBool f.new : BitVec 3).setWidth 8

/-- `ST_OK` (30_encoding R82). -/
def stOk : Byte := 0x40

/-- `ST_NOT_FOUND` (30_encoding R82). -/
def stNotFound : Byte := 0x41

/-- `ST_ACCEPTED` (30_encoding R82). -/
def stAccepted : Byte := 0x80

/-- `ST_BUSY` (30_encoding R82). -/
def stBusy : Byte := 0x81

/-- `ST_PROG_STATUS`: 0x90 with `PR_BUSY` in bit 0 (30_encoding R82). -/
def stProgStatus (busy : Bool) : Byte := 0x90 ||| (BitVec.ofBool busy).setWidth 8

/-- `ST_ILLEGAL` (30_encoding R82). -/
def stIllegal : Byte := 0xC0

/-- `{ST, RD}` (30_encoding R82). -/
def response (st : Byte) (rd : BitVec 16) : Response := st ++ rd

/-- `RESP <- {st, rd}` (42_organizer R200). -/
def respond (st : Byte) (rd : BitVec 16) (s : State) : State :=
  { s with resp := response st rd }

/-- `RESP <- {flags, 0}` (42_organizer R215). -/
def respondFlags (f : OrgFlags) (s : State) : State :=
  respond f.status 0 s

/-- `RESP <- {0xC0, 0}`, the answer to an illegal word; nothing else changes (30_encoding R85). -/
def respondIllegal (s : State) : State :=
  respond stIllegal 0 s

/-! ## Result codes (60_exceptions R325) -/

/-- `SUCCESS`. -/
def resSuccess : Byte := 0x00

/-- `TIMEOUT`, in the taxonomy and produced by no rule (43_programmer R289). -/
def resTimeout : Byte := 0x01

/-- `NO_ACK`. -/
def resNoAck : Byte := 0x02

/-- `SHORT`. -/
def resShort : Byte := 0x03

/-- `NO_DECODER`. -/
def resNoDecoder : Byte := 0x04

/-- `GEN_ERROR`. -/
def resGenError : Byte := 0x05

/-- `BIT_ERROR`. -/
def resBitError : Byte := 0x06

/-- `PAGED_ERROR`. -/
def resPagedError : Byte := 0x07

/-- `CAP_POS`. -/
def resCapPos : Byte := 0x08

/-- `CAP_NEG`. -/
def resCapNeg : Byte := 0x09

/-- `TERMINATED`. -/
def resTerminated : Byte := 0x0A

/-- `NO_TASK`. -/
def resNoTask : Byte := 0x0B

/-- `map(r)`, byte results to task results (43_programmer R289); `BR_OK` is not mapped by any rule that uses it, and reads
as `SUCCESS` (DEDUCED, log 14). -/
def mapRes : ByteRes → Byte
  | .ok => resSuccess
  | .noAck => resNoAck
  | .noDec => resNoDecoder
  | .bitErr => resBitError

end Sys2Proof.Machine
end

