-- ==== Sys2Proof/Machine/Ops.lean ====
section
/-! DEFINITION. The named operations over the block's storage: sequencing of outcomes, ring queues, the mailbox dispatch,
the inputs, and the write of the run-mode. The block has no addressable memory (20_memory R60) and takes no exception
(60_exceptions R320), so there is no memory operation and no exception entry or return. -/

namespace Sys2Proof.Machine

/-- Go on with `f` from a next state; a fault or a refusal ends the step (60_exceptions R321). -/
def andThen (o : Result) (f : State → Result) : Result :=
  match o with
  | .next s => f s
  | .fault r => .fault r
  | .refused r => .refused r

/-! ## Ring queues (10_state R30) -/

/-- `empty(Q)`. -/
def Ring.empty (q : Ring) : Bool := q.rd == q.wr

/-- `full(Q)`. -/
def Ring.full (q : Ring) : Bool := (q.wr + 1) % q.slots.length == q.rd

/-- `count(Q) = (wr - rd) mod N`, for `rd`, `wr` below `N`. -/
def Ring.count (q : Ring) : Nat := (q.wr + q.slots.length - q.rd) % q.slots.length

/-- `push(Q, m)`: none (the rule's `false`) when full, and then nothing changes. -/
def Ring.push (q : Ring) (m : Message) : Option Ring :=
  if q.full then none
  else some { q with slots := q.slots.set q.wr m, wr := (q.wr + 1) % q.slots.length }

/-- `head(Q)`, none when empty. -/
def Ring.head (q : Ring) : Option Message :=
  if q.empty then none else q.slots[q.rd]?

/-- `pop(Q)`. -/
def Ring.pop (q : Ring) : Ring :=
  { q with rd := (q.rd + 1) % q.slots.length }

/-- The slot numbers of the live entries, oldest first. -/
def Ring.liveIdx (q : Ring) : List Nat :=
  (List.range q.count).map fun k => (q.rd + k) % q.slots.length

/-- The live entries, oldest first. -/
def Ring.live (q : Ring) : List Message :=
  q.liveIdx.filterMap fun j => q.slots[j]?

/-- `replace(Q, j, m)`: write `m` into live slot `j` without moving `rd` or `wr`. -/
def Ring.replace (q : Ring) (j : Nat) (m : Message) : Ring :=
  { q with slots := q.slots.set j m }

/-- `push(SMQ, m)`, answering also whether it failed (10_state R30, R31). -/
def pushSmq (m : Message) (s : State) : State × Bool :=
  match s.smq.push m with
  | some q => ({ s with smq := q }, false)
  | none => (s, true)

/-- `push(HPQ, m)`, answering also whether it failed (10_state R30, R31). -/
def pushHpq (m : Message) (s : State) : State × Bool :=
  match s.hpq.push m with
  | some q => ({ s with hpq := q }, false)
  | none => (s, true)

/-! ## The mailbox (20_memory R63) -/

/-- `dispatch(m, n, src)`: one atomic action; the race is checked before the size (60_exceptions R322). -/
def dispatch (m : Message) (n : Byte) (src : MbxSrc) (s : State) : Result :=
  if s.mbxCnt ≠ 0 then .fault (.mailboxRace m)
  else if sizeOk m = false then .fault (.badSize m)
  else .next { s with mbx := m, mbxSrc := src, last := m, lastValid := true, mbxCnt := n }

/-- `differs(m)`: no dispatch yet, or not the same message as the last (42_organizer R201, 10_state R35). -/
def differs (s : State) (m : Message) : Bool :=
  !s.lastValid || !sameMsg m s.last

/-! ## Inputs (10_state R27 to R29) -/

/-- `sample_ack()`: the next sample the environment has settled, else a free draw (10_state R27, log 3). -/
def sampleAck (s : State) : Bool × State :=
  match s.ackIn with
  | b :: rest => (b, { s with ackIn := rest })
  | [] => (Config.freeAck s.ackDraws, { s with ackDraws := s.ackDraws + 1 })

/-- The number of ones among `n` fresh samples (43_programmer R266). -/
def countAcks : Nat → State → Nat × State
  | 0, s => (0, s)
  | n + 1, s =>
    let (b, s1) := sampleAck s
    let (k, s2) := countAcks n s1
    (k + b.toNat, s2)

/-- `ack_poll()`: `ACK_SAMPLES` samples, `ACK_THRESHOLD` of them ones (43_programmer R266). -/
def ackPoll (s : State) : Bool × State :=
  let (k, s1) := countAcks s.params.ackSamples s
  (decide (s.params.ackThreshold ≤ k), s1)

/-- A time `t0` is fresh at the clock reading `t`: `(t - t0) mod 2^32 < CACHE_EXPIRY_MS` (10_state R29). -/
def freshAt (p : Params) (t0 t : Millis) : Bool :=
  decide ((t - t0).toNat < p.cacheExpiryMs)

/-- `fresh(t0)` now (10_state R29, 43_programmer R274). -/
def fresh (s : State) (t0 : Millis) : Bool := freshAt s.params t0 s.clockMs

/-! ## The run-mode (10_state R22) -/

/-- The status subsystem's write of a code to `RUN_MODE` (10_state R22, 60_exceptions R321). -/
def writeRunMode (code : BitVec 4) (s : State) : Result :=
  match modeOfCode code with
  | some m => .next { s with runMode := m }
  | none => .fault (.badRunMode code)

end Sys2Proof.Machine
end

