-- ==== Sys2Proof/Machine/Organizer.lean ====
section
/-! DEFINITION. The command organizer (42_organizer): the locomotive table, the deduplicating insert, the repeat buffer,
the enqueue, the refresh scheduler and the selection. -/

namespace Sys2Proof.Machine

/-! ## The locomotive table (42_organizer R210) -/

/-- The lowest index of the largest value, none for no values. -/
def maxIdx (l : List Nat) : Option Nat :=
  l.findIdx? fun x => l.all fun y => y ≤ x

/-- The lowest index of the smallest value, none for no values. -/
def minIdx (l : List Nat) : Option Nat :=
  l.findIdx? fun x => l.all fun y => x ≤ y

/-- The index of the entry with address `a`, if any (42_organizer R210). -/
def locoFind (l : List LocoEntry) (a : LocoAddr) : Option Nat :=
  l.findIdx? fun e => e.addr == a

/-- Entry `i` of the table; every index the rules use is in range. -/
def locoAt (l : List LocoEntry) (i : Nat) : LocoEntry := l.getD i emptyLoco

/-- Where a new address goes: the lowest empty slot, else the entry with the largest `refresh`, lowest index on a tie
(42_organizer R210). -/
def locoVictim (l : List LocoEntry) : Nat :=
  match locoFind l 0 with
  | some i => i
  | none => (maxIdx (l.map fun e => e.refresh.toNat)).getD 0

/-- A new entry for address `a` (42_organizer R210). -/
def newLoco (p : Params) (a : LocoAddr) : LocoEntry where
  addr := a
  speed := 0
  format := formatOf p a
  active := true
  funcs := 0
  refresh := 0

/-- `loco_get(a)`: the index, whether the entry is new, and the table (42_organizer R210). -/
def locoGet (p : Params) (a : LocoAddr) (l : List LocoEntry) : Nat × Bool × List LocoEntry :=
  match locoFind l a with
  | some i => (i, false, l)
  | none => (locoVictim l, true, l.set (locoVictim l) (newLoco p a))

/-! ## The low-priority insert (42_organizer R213) -/

/-- The slot of the oldest live entry with a given key. At most one live entry has a key that is not RAW, since every
insert replaces (DEDUCED, log 13). -/
def Ring.findKey (q : Ring) (k : Key) : Option Nat :=
  q.liveIdx.find? fun j => (q.slots[j]?.map keyOf) == some k

/-- `lp_insert(m)` on the queue, none where it answers false (42_organizer R213). -/
def lpInsertRing (q : Ring) (m : Message) : Option Ring :=
  if (keyOf m).isRaw then q.push m
  else match q.findKey (keyOf m) with
    | some j => some (q.replace j m)
    | none => q.push m

/-- `lp_insert(m)`, answering also whether it failed (42_organizer R213). -/
def lpInsert (m : Message) (s : State) : State × Bool :=
  match lpInsertRing s.lpq m with
  | some q => ({ s with lpq := q }, false)
  | none => (s, true)

/-! ## The repeat buffer (42_organizer R214) -/

/-- The entry is pending and has key `k`. -/
def rptMatches (k : Key) (e : RptEntry) : Bool := e.cnt != 0 && keyOf e.msg == k

/-- Where `rpt_put` puts a message with no pending entry of its key: the lowest free entry, else the one with the smallest
count, lowest index on a tie (42_organizer R214). -/
def rptSlot (l : List RptEntry) : Nat :=
  match l.findIdx? fun e => e.cnt == 0 with
  | some j => j
  | none => (minIdx (l.map fun e => e.cnt.toNat)).getD 0

/-- `rpt_put(m)` (42_organizer R214). -/
def rptPut (m : Message) (l : List RptEntry) : List RptEntry :=
  match l.findIdx? (rptMatches (keyOf m)) with
  | some j => l.set j { msg := m, cnt := m.rep }
  | none => if m.rep = 0 then l else l.set (rptSlot l) { msg := m, cnt := m.rep }

/-- `rpt_clear(k)` (42_organizer R214). -/
def rptClear (k : Key) (l : List RptEntry) : List RptEntry :=
  l.map fun e => if rptMatches k e then { e with cnt := 0 } else e

/-- `rpt_select()` (42_organizer R214). -/
def rptSelect (l : List RptEntry) : Option Nat :=
  if l.all fun e => e.cnt == 0 then none else maxIdx (l.map fun e => e.cnt.toNat)

/-! ## Enqueueing (42_organizer R203) -/

/-- `enqueue(m)`: to `SMQ` in a PROG mode, else `lp_insert`; answers also whether the message was dropped, which sets
`ORG_FULL` (42_organizer R203, R215). -/
def enqueue (m : Message) (s : State) : State × Bool :=
  if isProg s.runMode then pushSmq m s else lpInsert m s

/-- `rpt_clear(key(m))`, only in a RUN mode (42_organizer R204, R205). -/
def clearRepeats (m : Message) (s : State) : State :=
  if isProg s.runMode then s else { s with rpt := rptClear (keyOf m) s.rpt }

/-- "Direction changed or slowed" against the stored speed (42_organizer R204). -/
def slowed (old new : Byte) : Bool :=
  speedDir old != speedDir new || decide (speedMag new < speedMag old)

/-! ## The refresh scheduler (42_organizer R220 to R223) -/

/-- What the refresh scheduler works on: `RF_CURSOR`, `RF_LEVEL` and the table. -/
structure Sweep where
  cursor : Nat
  level : Nat
  loco : List LocoEntry
  deriving DecidableEq, Repr

/-- Age one entry by one refresh cycle, bounded by `STALE_MAX`; empty slots are left (42_organizer R222). -/
def ageLoco (p : Params) (e : LocoEntry) : LocoEntry :=
  if e.addr = 0 then e else { e with refresh := BitVec.ofNat 8 (min (e.refresh.toNat + 1) p.staleMax) }

/-- `advance_level()` (42_organizer R222). -/
def advanceLevel (p : Params) (w : Sweep) : Sweep :=
  if w.level + 1 < refreshLevels p then { w with level := w.level + 1 }
  else { w with level := 0, loco := w.loco.map (ageLoco p) }

/-- Move the cursor by one; a wrap to 0 advances the level (42_organizer R220). -/
def advanceCursor (p : Params) (w : Sweep) : Sweep :=
  let c := (w.cursor + 1) % w.loco.length
  if c = 0 then advanceLevel p { w with cursor := 0 } else { w with cursor := c }

/-- What entry `e` has to refresh at a level: its speed at an even level, function group `(lvl + 1) / 2` at an odd level
if that group is not all zero (42_organizer R220, R221). -/
def refreshOf (p : Params) (lvl : Nat) (e : LocoEntry) : Option Message :=
  if e.addr = 0 ∨ e.active = false then none
  else if lvl % 2 = 0 then some (speedMsg p e.addr e.speed e.format (e.funcs.getLsbD 0))
  else if groupBits e.funcs ((lvl + 1) / 2) = 0 then none
  else some (groupMsg p e.addr ((lvl + 1) / 2) e.funcs)

/-- At most `n` iterations of the search of `refresh_next()` (42_organizer R220). -/
def refreshScan (p : Params) : Nat → Sweep → Option Message × Sweep
  | 0, w => (none, w)
  | n + 1, w =>
    let w1 := advanceCursor p w
    match refreshOf p w.level (locoAt w1.loco w.cursor) with
    | some m => (some m, w1)
    | none => refreshScan p n w1

/-- `refresh_next()`: the candidate, its source and the advanced state; the dummy message after `N * L` iterations without
a candidate (42_organizer R220, R223). -/
def refreshNext (s : State) : Message × MbxSrc × State :=
  let r := refreshScan s.params (s.loco.length * refreshLevels s.params)
    { cursor := s.rfCursor, level := s.rfLevel, loco := s.loco }
  let s1 := { s with rfCursor := r.2.cursor, rfLevel := r.2.level, loco := r.2.loco }
  match r.1 with
  | some m => (m, .refresh, s1)
  | none => (dummyMsg s.params, .dummy, s1)

/-! ## Selection (42_organizer R201, R202) -/

/-- Branch 1: the service-mode queue, then idle; neither is conditioned on `differs` (42_organizer R201, R202). -/
def dispatchProg (s : State) : Result :=
  match s.smq.head with
  | some m => dispatch m (m.rep + 1) .smq { s with smq := s.smq.pop }
  | none => dispatch idleMsg 1 .idle s

/-- Branches 5 and 6: the next refresh candidate unless it equals the message just sent, then idle (42_organizer R201). -/
def dispatchRefresh (s : State) : Result :=
  let (c, src, s1) := refreshNext s
  if differs s1 c then dispatch c 1 src s1 else dispatch idleMsg 1 .idle s1

/-- Branches 4 to 6: a repeat-buffer entry, else the refresh candidate, else idle (42_organizer R201). -/
def dispatchRepeat (s : State) : Result :=
  match rptSelect s.rpt with
  | some j =>
    match s.rpt[j]? with
    | some e =>
      if differs s e.msg then
        dispatch e.msg 1 .rpt { s with rpt := s.rpt.set j { e with cnt := e.cnt - 1 } }
      else dispatchRefresh s
    | none => dispatchRefresh s
  | none => dispatchRefresh s

/-- Branches 3 to 6: the low-priority head, copied into the repeat buffer (42_organizer R201). -/
def dispatchLow (s : State) : Result :=
  match s.lpq.head with
  | some m =>
    if differs s m then dispatch m 1 .lpq { s with lpq := s.lpq.pop, rpt := rptPut m s.rpt }
    else dispatchRepeat s
  | none => dispatchRepeat s

/-- Branches 2 to 6: the high-priority head (42_organizer R201). -/
def dispatchRun (s : State) : Result :=
  match s.hpq.head with
  | some m =>
    if differs s m then dispatch m 1 .hpq { s with hpq := s.hpq.pop } else dispatchLow s
  | none => dispatchLow s

/-- `organizer_dispatch()` (42_organizer R201, R225). -/
def organizerDispatch (s : State) : Result :=
  if isProg s.runMode then dispatchProg s else dispatchRun s

end Sys2Proof.Machine
end

