-- ==== Sys2Proof/Machine/AccCmds.lean ====
section
/-! DEFINITION. The meanings of the accessory, program-on-main and fast-clock commands (42_organizer R208, R209). -/

namespace Sys2Proof.Machine

/-- `flags <- enqueue(m, 0)` and the response (42_organizer R208, R209). -/
def enqueueOnly (m : Message) (s : State) : Result :=
  let (s1, full) := enqueue m s
  .next (respondFlags { new := false, hp := false, full := full } s1)

/-- `ACC_BASIC` (42_organizer R208). -/
def execAccBasic (addr : BitVec 12) (act : Bool) (s : State) : Result :=
  enqueueOnly (accMsg s.params addr act) s

/-- `ACC_EXT` (42_organizer R208). -/
def execAccExt (addr : BitVec 11) (aspect : BitVec 5) (s : State) : Result :=
  enqueueOnly (xaccMsg s.params addr aspect) s

/-- `POM_LOCO_WRBYTE` (42_organizer R209). -/
def execPomLocoWrbyte (addr : LocoAddr) (cva : CvAddr) (data : Byte) (s : State) : Result :=
  enqueueOnly (pomWriteMsg s.params addr cva data) s

/-- `POM_LOCO_WRBIT` (42_organizer R209). -/
def execPomLocoWrbit (addr : LocoAddr) (cva : CvAddr) (bit : BitPos) (val : Bool) (s : State) : Result :=
  enqueueOnly (pomBitMsg s.params addr cva bit val) s

/-- `POM_LOCO_VERIFY` (42_organizer R209). -/
def execPomLocoVerify (addr : LocoAddr) (cva : CvAddr) (data : Byte) (s : State) : Result :=
  enqueueOnly (pomVerifyMsg s.params addr cva data) s

/-- `POM_ACC_WRBYTE` (42_organizer R209). -/
def execPomAccWrbyte (dec : BitVec 9) (cva : CvAddr) (data : Byte) (s : State) : Result :=
  enqueueOnly (pomAccMsg s.params dec cva data) s

/-- `FAST_CLOCK` (42_organizer R209); the packet's size and payload are a free value (41_builders R174, log 5). -/
def execFastClock (min : BitVec 6) (hour : BitVec 5) (wday : BitVec 3) (ratio : BitVec 6) (s : State) : Result :=
  enqueueOnly (fastClockMsg s.params min hour wday ratio) s

end Sys2Proof.Machine
end

