-- ==== Sys2Proof/Machine/LocoCmds.lean ====
section
/-! DEFINITION. The meanings of the locomotive commands and the broadcast stop (42_organizer R204 to R207). -/

namespace Sys2Proof.Machine

/-- `LOCO_SPEED` (42_organizer R204). -/
def execLocoSpeed (addr : LocoAddr) (speed : Byte) (s : State) : Result :=
  let (i, isNew, l) := locoGet s.params addr s.loco
  let old := locoAt l i
  let e : LocoEntry := { old with speed := speed, active := true, refresh := 0 }
  let m := speedMsg s.params addr speed e.format (e.funcs.getLsbD 0)
  let (s1, full) := enqueue m (clearRepeats m { s with loco := l.set i e })
  let hp := !isProg s.runMode && !isNew && slowed old.speed speed
  if hp then
    let (s2, hpFull) := pushHpq m s1
    .next (respondFlags { new := isNew, hp := true, full := full || hpFull } s2)
  else
    .next (respondFlags { new := isNew, hp := false, full := full } s1)

/-- The shared body of the function-group commands, group `g` set to `d` (42_organizer R205). -/
def setGroup (g : Nat) (addr : LocoAddr) (d : Byte) (s : State) : Result :=
  let (i, isNew, l) := locoGet s.params addr s.loco
  let old := locoAt l i
  let e : LocoEntry := { old with funcs := setGroupBits old.funcs g d, active := true, refresh := 0 }
  let m := groupMsg s.params addr g e.funcs
  let (s1, full) := enqueue m (clearRepeats m { s with loco := l.set i e })
  .next (respondFlags { new := isNew, hp := false, full := full } s1)

/-- `LOCO_FGRP1` (42_organizer R205). -/
def execLocoFgrp1 (addr : LocoAddr) (funcs : BitVec 5) (s : State) : Result :=
  setGroup 1 addr (funcs.setWidth 8) s

/-- `LOCO_FGRP2` (42_organizer R205). -/
def execLocoFgrp2 (addr : LocoAddr) (funcs : BitVec 4) (s : State) : Result :=
  setGroup 2 addr (funcs.setWidth 8) s

/-- `LOCO_FGRP3` (42_organizer R205). -/
def execLocoFgrp3 (addr : LocoAddr) (funcs : BitVec 4) (s : State) : Result :=
  setGroup 3 addr (funcs.setWidth 8) s

/-- `LOCO_FGRP4` (42_organizer R205). -/
def execLocoFgrp4 (addr : LocoAddr) (funcs : Byte) (s : State) : Result :=
  setGroup 4 addr funcs s

/-- `LOCO_FGRP5` (42_organizer R205). -/
def execLocoFgrp5 (addr : LocoAddr) (funcs : Byte) (s : State) : Result :=
  setGroup 5 addr funcs s

/-- `LOCO_FORGET` (42_organizer R206). -/
def execLocoForget (addr : LocoAddr) (s : State) : Result :=
  match locoFind s.loco addr with
  | some i => .next (respond stOk (BitVec.ofNat 16 i) { s with loco := s.loco.set i emptyLoco })
  | none => .next (respond stNotFound 0 s)

/-- `BCAST_STOP` (42_organizer R207). -/
def execBcastStop (emerg : Bool) (s : State) : Result :=
  let m := stopMsg s.params emerg
  if isProg s.runMode then
    let (s1, full) := pushSmq m s
    .next (respondFlags { new := false, hp := false, full := full } s1)
  else
    let (s1, full) := pushHpq m s
    .next (respondFlags { new := false, hp := true, full := full } s1)

end Sys2Proof.Machine
end

