-- ==== Sys2Proof/Machine/Programmer.lean ====
section
/-! DEFINITION. The service-mode programmer (43_programmer R260 to R289): its inner loop, byte layer and sequence layer,
and `prog_step`, in which exactly one layer acts. -/

namespace Sys2Proof.Machine

/-- Write the programmer's registers. -/
def setProg (f : Programmer → Programmer) (s : State) : State := { s with prog := f s.prog }

/-- The u8 value of `SEQ_OP`: a task's opcode, 0 for none (10_state R36, 30_encoding R84). -/
def seqOpCode : Option TaskOp → Byte
  | none => 0x00
  | some .regRead => 0x40
  | some .regWrite => 0x41
  | some .pagedRead => 0x42
  | some .pagedWrite => 0x43
  | some .directRead => 0x44
  | some .directWrite => 0x45
  | some .bitWrite => 0x46
  | some .bitVerify => 0x47
  | some .longaddrRead => 0x48
  | some .longaddrWrite => 0x49
  | some .queryBitcap => 0x4A

/-- The cycle-count row of `BYTE_MODE` (43_programmer R262, R267). -/
def cycRow (p : Params) : ByteMode → CycRow
  | .direct => p.cycDirect
  | .reg => p.cycReg

/-- `sm_drained()` (43_programmer R265). -/
def smDrained (s : State) : Bool :=
  s.smq.empty && !(s.mbxSrc == .smq && s.mbxCnt != 0)

/-- `finish(code)` (43_programmer R271). -/
def finish (code : Byte) (s : State) : State :=
  setProg (fun g => { g with prResult := code, innerState := .idle, byteBusy := false, byteDone := false,
                             seqState := .exit }) s

/-! ## Inner loop (43_programmer R267 to R269) -/

/-- `inner_start(pkt, wr)` (43_programmer R267). -/
def innerStart (pkt : Message) (wr : Bool) (s : State) : State :=
  setProg (fun g => { g with innerPkt := pkt, innerWr := wr, innerAck := false, innerState := .pre }) s

/-- Push a service-mode message and go to `st`; a full `SMQ` leaves the state for a retry (43_programmer R267). -/
def innerPush (m : Message) (st : InnerState) (s : State) : State :=
  match s.smq.push m with
  | some q => setProg (fun g => { g with innerState := st }) { s with smq := q }
  | none => s

/-- The number of trailing resets (43_programmer R267). -/
def postResets (s : State) : Nat :=
  if s.prog.innerWr then (cycRow s.params s.prog.byteMode).postWr else (cycRow s.params s.prog.byteMode).postVf

/-- The command packet with its repeat, `cmd - 1` (43_programmer R267). -/
def innerCmdMsg (s : State) : Message :=
  { s.prog.innerPkt with rep := BitVec.ofNat 8 ((cycRow s.params s.prog.byteMode).cmd - 1) }

/-- `I_WAIT`: poll the acknowledgment; go on when it was seen or the queue has drained (43_programmer R267). -/
def innerWait (s : State) : State :=
  let (a, s1) := ackPoll s
  let s2 := if a then setProg (fun g => { g with innerAck := true }) s1 else s1
  if s2.prog.innerAck || smDrained s2 then setProg (fun g => { g with innerState := .post }) s2 else s2

/-- `inner_step()`, an arm for each of `I_PRE`, `I_CMD`, `I_WAIT`, `I_POST` (43_programmer R267). -/
def innerStep (s : State) : State :=
  match s.prog.innerState with
  | .pre => innerPush (resetTimes (cycRow s.params s.prog.byteMode).pre) .cmd s
  | .cmd => innerPush (innerCmdMsg s) .wait s
  | .wait => innerWait s
  | .post => innerPush (resetTimes (postResets s)) .done s
  | .idle => s
  | .done => s

/-- `pkt_write(tgt, d)` (43_programmer R269). -/
def pktWrite (mode : ByteMode) (tgt : CvAddr) (d : Byte) : Message :=
  match mode with
  | .direct => smWriteByte tgt d
  | .reg => smRegWrite (tgt.setWidth 3) d

/-- `pkt_verify(tgt, d)` (43_programmer R269). -/
def pktVerify (mode : ByteMode) (tgt : CvAddr) (d : Byte) : Message :=
  match mode with
  | .direct => smVerifyByte tgt d
  | .reg => smRegVerify (tgt.setWidth 3) d

/-! ## Byte layer (43_programmer R273 to R279) -/

/-- `byte_start(op, mode, tgt, data, bit, bitval)` (43_programmer R273). -/
def byteStart (op : ByteOp) (mode : ByteMode) (tgt : CvAddr) (data : Byte) (bit : BitPos) (val : Bool) (s : State) :
    State :=
  setProg (fun g => { g with
    byteOp := op, byteMode := mode, byteTgt := tgt, byteData := data, byteBit := bit, byteBitval := val,
    byteI := 0, byteAcc := 0, byteA0 := false, byteVal := 0, byteDone := false, byteBusy := true,
    bytePh := if op = .scanRead then .scan else .cap }) s

/-- `byte_done(r)` (43_programmer R273). -/
def byteFinish (r : ByteRes) (s : State) : State :=
  setProg (fun g => { g with byteRes := r, byteBusy := false, byteDone := true }) s

/-- `cap_decided(cap)` (43_programmer R274). -/
def capDecided (yes : Bool) (s : State) : State :=
  match s.prog.byteOp with
  | .capProbe => byteFinish (if yes then .ok else .noAck) s
  | _ => setProg (fun g => { g with byteI := 0, byteAcc := 0, bytePh := if yes then .bits else .scan }) s

/-- `byte_issue()` in a phase (43_programmer R274, R277, R278). -/
def phaseIssue (s : State) : State :=
  match s.prog.bytePh with
  | .cap =>
    if s.prog.bitcap ≠ .unknown ∧ fresh s s.prog.bitcapT = true then capDecided (s.prog.bitcap == .yes) s
    else innerStart (smVerifyBit 7 0 (s.prog.byteI.getLsbD 0)) false s
  | .bits =>
    if s.prog.byteI.toNat < 8 then innerStart (smVerifyBit s.prog.byteTgt (s.prog.byteI.setWidth 3) true) false s
    else innerStart (smVerifyByte s.prog.byteTgt s.prog.byteAcc) false s
  | .scan => innerStart (pktVerify s.prog.byteMode s.prog.byteTgt (s.prog.byteI.setWidth 8)) false s

/-- `byte_issue()` (43_programmer R273, R275). -/
def byteIssue (s : State) : State :=
  match s.prog.byteOp with
  | .writeByte => innerStart (pktWrite s.prog.byteMode s.prog.byteTgt s.prog.byteData) true s
  | .writeBit => innerStart (smWriteBit s.prog.byteTgt s.prog.byteBit s.prog.byteBitval) true s
  | .verifyBit => innerStart (smVerifyBit s.prog.byteTgt s.prog.byteBit s.prog.byteBitval) false s
  | .scanRead => phaseIssue s
  | .readDirect => phaseIssue s
  | .capProbe => phaseIssue s

/-- `byte_result(a)` in the phase `PH_CAP` (43_programmer R274). -/
def capResult (a : Bool) (s : State) : State :=
  if s.prog.byteI = 0 then setProg (fun g => { g with byteA0 := a, byteI := 1 }) s
  else
    let yes := s.prog.byteA0 != a
    capDecided yes
      (setProg (fun g => { g with bitcap := if yes then .yes else .no, bitcapT := s.clockMs }) s)

/-- `byte_result(a)` in the phase `PH_BITS` (43_programmer R278). -/
def bitsResult (a : Bool) (s : State) : State :=
  if s.prog.byteI.toNat < 8 then
    setProg (fun g => { g with
      byteAcc := if a then g.byteAcc ||| (1 <<< g.byteI.toNat) else g.byteAcc, byteI := g.byteI + 1 }) s
  else if a then byteFinish .ok (setProg (fun g => { g with byteVal := g.byteAcc }) s)
  else byteFinish .bitErr s

/-- `byte_result(a)` in the phase `PH_SCAN` (43_programmer R277). -/
def scanResult (a : Bool) (s : State) : State :=
  if a then byteFinish .ok (setProg (fun g => { g with byteVal := g.byteI.setWidth 8 }) s)
  else if s.prog.byteI = 255 then byteFinish .noDec s
  else setProg (fun g => { g with byteI := g.byteI + 1 }) s

/-- `byte_result(a)` in a phase (43_programmer R274, R277, R278). -/
def phaseResult (a : Bool) (s : State) : State :=
  match s.prog.bytePh with
  | .cap => capResult a s
  | .bits => bitsResult a s
  | .scan => scanResult a s

/-- `byte_result(a)` (43_programmer R273, R275). -/
def byteResult (a : Bool) (s : State) : State :=
  match s.prog.byteOp with
  | .writeByte => byteFinish (if a then .ok else .noAck) s
  | .writeBit => byteFinish (if a then .ok else .noAck) s
  | .verifyBit => byteFinish (if a then .ok else .noAck) s
  | .scanRead => phaseResult a s
  | .readDirect => phaseResult a s
  | .capProbe => phaseResult a s

/-- `byte_step()` (43_programmer R273): consume one inner outcome, or start the next inner operation. -/
def byteStep (s : State) : State :=
  if s.prog.innerState = .done then
    byteResult s.prog.innerAck (setProg (fun g => { g with innerState := .idle }) s)
  else byteIssue s

/-! ## Sequence layer (43_programmer R280 to R286) -/

/-- Go to step `pc` of the running sequence. -/
def toPc (pc : BitVec 3) (s : State) : State := setProg (fun g => { g with seqPc := pc }) s

/-- `PR_VALUE <- v`. -/
def setValue (v : BitVec 16) (s : State) : State := setProg (fun g => { g with prValue := v }) s

/-- A step the running task does not list (93_implementation_defined I9). -/
def unlisted (s : State) : Result := .fault (.unlistedSeqPc s.prog.seqOp s.prog.seqPc)

/-- The page cache hits for page `pg` (43_programmer R276). -/
def pageHit (s : State) (pg : Byte) : Bool :=
  s.prog.pageValid && s.prog.page == pg && fresh s s.prog.pageT

/-- Step 0 of both paged tasks: the page write, skipped where the cache hits (43_programmer R281). -/
def pagedIssue0 (s : State) : State :=
  if pageHit s (pageOf s.prog.seqCv) then toPc 1 s
  else byteStart .writeByte .reg 5 (pageOf s.prog.seqCv) 0 false s

/-- The result of the page write (43_programmer R281, R276). -/
def pagedResult0 (r : ByteRes) (s : State) : State :=
  match r with
  | .ok => toPc 1 (setProg (fun g => { g with pageValid := true, page := pageOf g.seqCv, pageT := s.clockMs }) s)
  | _ => finish resPagedError (setProg (fun g => { g with pageValid := false }) s)

/-- A read's result: the value on `BR_OK`, else `map(r)` (43_programmer R280 to R282). -/
def readResult (r : ByteRes) (v : Byte) (s : State) : State :=
  match r with
  | .ok => finish resSuccess (setValue (v.setWidth 16) s)
  | _ => finish (mapRes r) s

/-- A write's result: `SUCCESS` on `BR_OK`, else `map(r)` (43_programmer R280 to R282). -/
def writeResult (r : ByteRes) (s : State) : State :=
  match r with
  | .ok => finish resSuccess s
  | _ => finish (mapRes r) s

/-- The direct read of one CV of a long-address read (43_programmer R284). -/
def readCv (c : CvAddr) (s : State) : State := byteStart .readDirect .direct c 0 0 false s

/-- `seq_issue` (43_programmer R280 to R286), per task and `SEQ_PC`. -/
def seqIssue (s : State) : Result :=
  let g := s.prog
  match g.seqOp with
  | none => unlisted s
  | some .regRead =>
    if g.seqPc = 0 then .next (byteStart .scanRead .reg (g.seqReg.setWidth 10) 0 0 false s) else unlisted s
  | some .regWrite =>
    if g.seqPc = 0 then
      .next (byteStart .writeByte .reg (g.seqReg.setWidth 10) g.seqData 0 false
        (setProg (fun g => { g with pageValid := false }) s))
    else unlisted s
  | some .pagedRead =>
    if g.seqPc = 0 then .next (pagedIssue0 s)
    else if g.seqPc = 1 then .next (byteStart .scanRead .reg (pageReg g.seqCv) 0 0 false s)
    else unlisted s
  | some .pagedWrite =>
    if g.seqPc = 0 then .next (pagedIssue0 s)
    else if g.seqPc = 1 then .next (byteStart .writeByte .reg (pageReg g.seqCv) g.seqData 0 false s)
    else unlisted s
  | some .directRead =>
    if g.seqPc = 0 then .next (byteStart .readDirect .direct g.seqCv 0 0 false s) else unlisted s
  | some .directWrite =>
    if g.seqPc = 0 then .next (byteStart .writeByte .direct g.seqCv g.seqData 0 false s) else unlisted s
  | some .bitWrite =>
    if g.seqPc = 0 then .next (byteStart .writeBit .direct g.seqCv 0 g.seqBit g.seqBitval s) else unlisted s
  | some .bitVerify =>
    if g.seqPc = 0 then .next (byteStart .verifyBit .direct g.seqCv 0 g.seqBit g.seqBitval s) else unlisted s
  | some .longaddrRead =>
    if g.seqPc = 0 then .next (readCv 28 s)
    else if g.seqPc = 1 then .next (readCv 16 s)
    else if g.seqPc = 2 then .next (readCv 17 s)
    else if g.seqPc = 3 then .next (readCv 0 s)
    else unlisted s
  | some .longaddrWrite =>
    if g.seqPc = 0 then
      .next (byteStart .writeByte .direct 16 (0xC0 ||| (g.seqAddr >>> 8).setWidth 8) 0 false s)
    else if g.seqPc = 1 then .next (byteStart .writeByte .direct 17 (g.seqAddr.setWidth 8) 0 false s)
    else if g.seqPc = 2 then .next (byteStart .writeBit .direct 28 0 5 true s)
    else if g.seqPc = 4 then .next (byteStart .writeByte .direct 0 (g.seqAddr.setWidth 8 &&& 0x7F) 0 false s)
    else if g.seqPc = 5 then .next (byteStart .writeBit .direct 28 0 5 false s)
    else unlisted s
  | some .queryBitcap =>
    if g.seqPc = 0 then .next (byteStart .capProbe .direct 0 0 0 false s) else unlisted s

/-- `seq_result(BR_OK, v)` of a long-address read (43_programmer R284). -/
def longaddrReadOk (v : Byte) (s : State) : Result :=
  if s.prog.seqPc = 0 then
    .next (toPc (if v.getLsbD 5 then 1 else 3) (setProg (fun g => { g with seqTmp := v }) s))
  else if s.prog.seqPc = 1 then
    .next (toPc 2 (setProg (fun g => { g with seqAddr := (v &&& 0x3F).setWidth 14 <<< 8 }) s))
  else if s.prog.seqPc = 2 then
    .next (finish resSuccess (setValue (s.prog.seqAddr.setWidth 16 ||| v.setWidth 16) s))
  else if s.prog.seqPc = 3 then .next (finish resSuccess (setValue ((v &&& 0x7F).setWidth 16) s))
  else unlisted s

/-- The next step of a long-address write on `BR_OK` (43_programmer R285). -/
def longaddrWriteOk (s : State) : Result :=
  if s.prog.seqPc = 0 then .next (toPc 1 s)
  else if s.prog.seqPc = 1 then .next (toPc 2 s)
  else if s.prog.seqPc = 2 then .next (finish resSuccess s)
  else if s.prog.seqPc = 4 then .next (toPc 5 s)
  else if s.prog.seqPc = 5 then .next (finish resSuccess s)
  else unlisted s

/-- The steps a long-address write lists (43_programmer R285). -/
def longaddrWriteLists (pc : BitVec 3) : Bool := pc == 0 || pc == 1 || pc == 2 || pc == 4 || pc == 5

/-- The steps a long-address read lists (43_programmer R284). -/
def longaddrReadLists (pc : BitVec 3) : Bool := pc == 0 || pc == 1 || pc == 2 || pc == 3

/-- `seq_result(r, v)` (43_programmer R280 to R286), per task and `SEQ_PC`. -/
def seqResult (r : ByteRes) (v : Byte) (s : State) : Result :=
  let pc := s.prog.seqPc
  match s.prog.seqOp with
  | none => unlisted s
  | some .regRead => if pc = 0 then .next (readResult r v s) else unlisted s
  | some .regWrite => if pc = 0 then .next (writeResult r s) else unlisted s
  | some .pagedRead =>
    if pc = 0 then .next (pagedResult0 r s) else if pc = 1 then .next (readResult r v s) else unlisted s
  | some .pagedWrite =>
    if pc = 0 then .next (pagedResult0 r s) else if pc = 1 then .next (writeResult r s) else unlisted s
  | some .directRead => if pc = 0 then .next (readResult r v s) else unlisted s
  | some .directWrite => if pc = 0 then .next (writeResult r s) else unlisted s
  | some .bitWrite =>
    if pc = 0 then .next (finish (if r = .ok then resSuccess else resNoAck) s) else unlisted s
  | some .bitVerify =>
    if pc = 0 then
      .next (if r = .ok then finish resSuccess (setValue 1 s) else finish resNoAck (setValue 0 s))
    else unlisted s
  | some .longaddrRead =>
    if r = .ok then longaddrReadOk v s
    else if longaddrReadLists pc then .next (finish (mapRes r) s) else unlisted s
  | some .longaddrWrite =>
    if r = .ok then longaddrWriteOk s
    else if longaddrWriteLists pc then .next (finish resNoAck s) else unlisted s
  | some .queryBitcap =>
    if pc = 0 then .next (finish (if r = .ok then resCapPos else resCapNeg) s) else unlisted s

/-- `seq_step()` (43_programmer R280). -/
def seqStep (s : State) : Result :=
  if s.prog.byteDone then
    seqResult s.prog.byteRes s.prog.byteVal (setProg (fun g => { g with byteDone := false }) s)
  else seqIssue s

/-! ## Entry, exit, supervision (43_programmer R263, R270, R272) -/

/-- `mode_check()` (43_programmer R263). -/
def modeCheck (s : State) : State :=
  if s.runMode = .runShort ∨ s.runMode = .progShort then finish resShort s
  else if s.prog.seqState = .enter ∧ isProg s.runMode = true then finish resGenError s
  else if s.prog.seqState = .step ∧ s.runMode ≠ .progOkay then finish resGenError s
  else s

/-- `enter_step()` (43_programmer R270); a push the rule says cannot fail changes nothing where it does (log 9). -/
def enterStep (s : State) : State :=
  if s.mbxCnt ≠ 0 then s
  else
    let (s1, _) := pushSmq (resetTimes s.params.progEntryResets)
      (setProg (fun g => { g with priorMode := s.runMode, seqEntered := true }) { s with runMode := .progOkay })
    setProg (fun g => { g with seqState := .step }) s1

/-- The end of `exit_step()`: restore the run-mode, release the task (43_programmer R272). -/
def exitRelease (s : State) : State :=
  let mode := if s.prog.seqEntered = true ∧ s.runMode = .progOkay then s.prog.priorMode else s.runMode
  setProg (fun g => { g with seqEntered := false, prBusy := false, seqState := .idle }) { s with runMode := mode }

/-- `exit_step()` (43_programmer R272). -/
def exitStep (s : State) : State :=
  if isProg s.runMode then
    if smDrained s then exitRelease s else s
  else exitRelease { s with smq := { s.smq with rd := s.smq.wr } }

/-- The layer of `prog_step` that acts in `S_STEP`: the innermost one with work (43_programmer R264). -/
def layerStep (s : State) : Result :=
  match s.prog.innerState with
  | .pre => .next (innerStep s)
  | .cmd => .next (innerStep s)
  | .wait => .next (innerStep s)
  | .post => .next (innerStep s)
  | .idle => if s.prog.byteBusy then .next (byteStep s) else seqStep s
  | .done => if s.prog.byteBusy then .next (byteStep s) else seqStep s

/-- What `prog_step` does once the run-mode has been supervised (43_programmer R264). -/
def progAct (s : State) : Result :=
  match s.prog.seqState with
  | .idle => .next s
  | .enter => .next (enterStep s)
  | .exit => .next (exitStep s)
  | .step => layerStep s

/-- `prog_step()` (43_programmer R264). -/
def progStep (s : State) : Result :=
  match s.prog.seqState with
  | .idle => .next s
  | .enter => progAct (modeCheck s)
  | .step => progAct (modeCheck s)
  | .exit => progAct s

end Sys2Proof.Machine
end

