-- ==== Sys2Proof/Machine/ProgCmds.lean ====
section
/-! DEFINITION. The meanings of the programmer's commands: the task starts (43_programmer R261) and the administrative
commands (R287, R288). A start only records the task; `prog_step` runs it. -/

namespace Sys2Proof.Machine

/-- The operands a start copies; an operand the opcode does not use is 0 (43_programmer R261, log 10). -/
structure TaskArgs where
  cva : CvAddr := 0
  reg : RegIdx := 0
  data : Byte := 0
  bit : BitPos := 0
  val : Bool := false
  /-- `ADDR[13:0]`. -/
  addr : LocoAddr := 0
  deriving DecidableEq, Repr

/-- `initial_pc(op)`: 0, except 4 for the long-address write of a short address (43_programmer R261, R285). -/
def initialPc (p : Params) (op : TaskOp) (addr : LocoAddr) : BitVec 3 :=
  match op with
  | .longaddrWrite => if p.longAddrMin ≤ addr.toNat then 0 else 4
  | _ => 0

/-- The registers of a started task (43_programmer R261). -/
def startTask (op : TaskOp) (a : TaskArgs) (s : State) : State :=
  setProg (fun g => { g with
    seqOp := some op, seqCv := a.cva, seqReg := a.reg, seqData := a.data, seqBit := a.bit, seqBitval := a.val,
    seqAddr := a.addr, seqTmp := 0, seqPc := initialPc s.params op a.addr,
    prBusy := true, prResult := resultNone, prValue := 0, seqEntered := false,
    byteBusy := false, byteDone := false, innerState := .idle,
    seqState := if isProg s.runMode then .step else .enter }) s

/-- `start(op, fields)` (43_programmer R261, R290). -/
def start (op : TaskOp) (a : TaskArgs) (s : State) : Result :=
  if s.prog.prBusy then .next (respond stBusy 0 s)
  else .next (respond stAccepted 0 (startTask op a s))

/-- The raw `ADDR[13:0]` of a register command: the 1-based register number (30_encoding R81, 43_programmer R261). -/
def regAddrField (r : RegIdx) : LocoAddr := r.setWidth 14 + 1

/-- `PROG_REG_READ` (43_programmer R261, R280). -/
def execProgRegRead (reg : RegIdx) (s : State) : Result :=
  start .regRead { reg := reg, addr := regAddrField reg } s

/-- `PROG_REG_WRITE` (43_programmer R261, R280). -/
def execProgRegWrite (reg : RegIdx) (data : Byte) (s : State) : Result :=
  start .regWrite { reg := reg, data := data, addr := regAddrField reg } s

/-- `PROG_PAGED_READ` (43_programmer R261, R281). -/
def execProgPagedRead (cva : CvAddr) (s : State) : Result :=
  start .pagedRead { cva := cva } s

/-- `PROG_PAGED_WRITE` (43_programmer R261, R281). -/
def execProgPagedWrite (cva : CvAddr) (data : Byte) (s : State) : Result :=
  start .pagedWrite { cva := cva, data := data } s

/-- `PROG_DIRECT_READ` (43_programmer R261, R282). -/
def execProgDirectRead (cva : CvAddr) (s : State) : Result :=
  start .directRead { cva := cva } s

/-- `PROG_DIRECT_WRITE` (43_programmer R261, R282). -/
def execProgDirectWrite (cva : CvAddr) (data : Byte) (s : State) : Result :=
  start .directWrite { cva := cva, data := data } s

/-- `PROG_DIRECT_BIT_WRITE` (43_programmer R261, R283). -/
def execProgDirectBitWrite (cva : CvAddr) (bit : BitPos) (val : Bool) (s : State) : Result :=
  start .bitWrite { cva := cva, bit := bit, val := val } s

/-- `PROG_DIRECT_BIT_VERIFY` (43_programmer R261, R283). -/
def execProgDirectBitVerify (cva : CvAddr) (bit : BitPos) (val : Bool) (s : State) : Result :=
  start .bitVerify { cva := cva, bit := bit, val := val } s

/-- `PROG_LONGADDR_READ` (43_programmer R261, R284). -/
def execProgLongaddrRead (s : State) : Result :=
  start .longaddrRead {} s

/-- `PROG_LONGADDR_WRITE` (43_programmer R261, R285). -/
def execProgLongaddrWrite (addr : LocoAddr) (s : State) : Result :=
  start .longaddrWrite { addr := addr } s

/-- `PROG_QUERY_BITCAP` (43_programmer R261, R286). -/
def execProgQueryBitcap (s : State) : Result :=
  start .queryBitcap {} s

/-- The programmer's registers after a terminate of a running task (43_programmer R287). -/
def terminateTask (g : Programmer) : Programmer :=
  let g1 := { g with innerState := .idle, byteBusy := false, byteDone := false, prResult := resTerminated }
  if g.seqState = .enter then { g1 with prBusy := false, seqState := .idle } else { g1 with seqState := .exit }

/-- `PROG_TERMINATE` (43_programmer R287). -/
def execProgTerminate (s : State) : Result :=
  if s.prog.prBusy then
    .next (respond stOk (resTerminated.setWidth 16) (setProg terminateTask s))
  else
    .next (respond stOk (resNoTask.setWidth 16) (setProg (fun g => { g with prResult := resNoTask }) s))

/-- `PROG_STATUS` (43_programmer R288). -/
def execProgStatus (s : State) : Result :=
  .next (respond (stProgStatus s.prog.prBusy) (s.prog.prResult.setWidth 16) s)

/-- `PROG_VALUE` (43_programmer R288). -/
def execProgValue (s : State) : Result :=
  .next (respond stOk s.prog.prValue s)

end Sys2Proof.Machine
end

