-- ==== Sys2Proof/Machine/QueryCmds.lean ====
section
/-! DEFINITION. The meanings of the organizer queries (42_organizer R216, R217). They change nothing but `RESP`. -/

namespace Sys2Proof.Machine

/-- The "ready" predicate (42_organizer R216). -/
def ready (s : State) : Bool :=
  if isProg s.runMode then !s.smq.full else !s.lpq.full && !s.hpq.full

/-- The entry is active and not empty: a member of `S` (42_organizer R217). -/
def isActive (e : LocoEntry) : Bool := e.addr != 0 && e.active

/-- The active addresses, in table order (42_organizer R217, the set `S`). -/
def activeAddrs (l : List LocoEntry) : List Nat :=
  (l.filter isActive).map fun e => e.addr.toNat

/-- The smallest member of a list greater than `a`, else the smallest member (42_organizer R217). -/
def nextAfter (a : Nat) (l : List Nat) : Option Nat :=
  match (l.filter fun x => a < x).min? with
  | some x => some x
  | none => l.min?

/-- The largest member of a list smaller than `a`, else the largest member (42_organizer R217). -/
def prevBefore (a : Nat) (l : List Nat) : Option Nat :=
  match (l.filter fun x => x < a).max? with
  | some x => some x
  | none => l.max?

/-- `{ST_OK, v}` for a found value, else `{ST_NOT_FOUND, 0}` (42_organizer R217). -/
def respondFound (v : Option Nat) (s : State) : State :=
  match v with
  | some x => respond stOk (BitVec.ofNat 16 x) s
  | none => respond stNotFound 0 s

/-- `QUERY_READY` (42_organizer R216). -/
def execQueryReady (s : State) : Result :=
  .next (respond stOk ((BitVec.ofBool (ready s)).setWidth 16) s)

/-- `FIND_ACTIVE` (42_organizer R217). -/
def execFindActive (addr : LocoAddr) (s : State) : Result :=
  .next (respondFound (s.loco.findIdx? fun e => isActive e && e.addr == addr) s)

/-- `NEXT_ACTIVE` (42_organizer R217). -/
def execNextActive (addr : LocoAddr) (s : State) : Result :=
  .next (respondFound (nextAfter addr.toNat (activeAddrs s.loco)) s)

/-- `PREV_ACTIVE` (42_organizer R217). -/
def execPrevActive (addr : LocoAddr) (s : State) : Result :=
  .next (respondFound (prevBefore addr.toNat (activeAddrs s.loco)) s)

end Sys2Proof.Machine
end

