-- ==== Sys2Proof/Machine/Dispatch.lean ====
section
/-! DEFINITION. The dispatch of a command to its meaning: `execute(w)` of 42_organizer R203 after decoding, one arm per
row of spec/opcode_table.json. -/

namespace Sys2Proof.Machine

/-- The effect of a command, its response in `RESP` (42_organizer R203). -/
def exec (i : Instr) (s : State) : Host.Outcome State Fault Refusal :=
  match i with
  | .locoSpeed addr speed => Sys2Proof.Machine.execLocoSpeed addr speed s
  | .locoFgrp1 addr funcs => Sys2Proof.Machine.execLocoFgrp1 addr funcs s
  | .locoFgrp2 addr funcs => Sys2Proof.Machine.execLocoFgrp2 addr funcs s
  | .locoFgrp3 addr funcs => Sys2Proof.Machine.execLocoFgrp3 addr funcs s
  | .locoFgrp4 addr funcs => Sys2Proof.Machine.execLocoFgrp4 addr funcs s
  | .locoFgrp5 addr funcs => Sys2Proof.Machine.execLocoFgrp5 addr funcs s
  | .locoForget addr => Sys2Proof.Machine.execLocoForget addr s
  | .bcastStop emerg => Sys2Proof.Machine.execBcastStop emerg s
  | .accBasic addr act => Sys2Proof.Machine.execAccBasic addr act s
  | .accExt addr aspect => Sys2Proof.Machine.execAccExt addr aspect s
  | .pomLocoWrbyte addr cva data => Sys2Proof.Machine.execPomLocoWrbyte addr cva data s
  | .pomLocoWrbit addr cva bit val => Sys2Proof.Machine.execPomLocoWrbit addr cva bit val s
  | .pomLocoVerify addr cva data => Sys2Proof.Machine.execPomLocoVerify addr cva data s
  | .pomAccWrbyte dec cva data => Sys2Proof.Machine.execPomAccWrbyte dec cva data s
  | .fastClock min hour wday ratio => Sys2Proof.Machine.execFastClock min hour wday ratio s
  | .queryReady => Sys2Proof.Machine.execQueryReady s
  | .findActive addr => Sys2Proof.Machine.execFindActive addr s
  | .nextActive addr => Sys2Proof.Machine.execNextActive addr s
  | .prevActive addr => Sys2Proof.Machine.execPrevActive addr s
  | .progRegRead reg => Sys2Proof.Machine.execProgRegRead reg s
  | .progRegWrite reg data => Sys2Proof.Machine.execProgRegWrite reg data s
  | .progPagedRead cva => Sys2Proof.Machine.execProgPagedRead cva s
  | .progPagedWrite cva data => Sys2Proof.Machine.execProgPagedWrite cva data s
  | .progDirectRead cva => Sys2Proof.Machine.execProgDirectRead cva s
  | .progDirectWrite cva data => Sys2Proof.Machine.execProgDirectWrite cva data s
  | .progDirectBitWrite cva bit val => Sys2Proof.Machine.execProgDirectBitWrite cva bit val s
  | .progDirectBitVerify cva bit val => Sys2Proof.Machine.execProgDirectBitVerify cva bit val s
  | .progLongaddrRead => Sys2Proof.Machine.execProgLongaddrRead s
  | .progLongaddrWrite addr => Sys2Proof.Machine.execProgLongaddrWrite addr s
  | .progQueryBitcap => Sys2Proof.Machine.execProgQueryBitcap s
  | .progTerminate => Sys2Proof.Machine.execProgTerminate s
  | .progStatus => Sys2Proof.Machine.execProgStatus s
  | .progValue => Sys2Proof.Machine.execProgValue s

end Sys2Proof.Machine
end

