-- ==== Sys2Proof/Machine/Encoder.lean ====
section
/-! DEFINITION. The track encoder: the tick, one arm per `ENC_STATE` (40_encoder R130 to R140), the wire format of a
packet and the line waveform of a symbol (30_encoding R89, R90; 70_reset R362). -/

namespace Sys2Proof.Machine

/-! ## The tick -/

/-- `emit(sym)` (40_encoder R131). -/
def emit (sym : Symbol) (s : State) : State := { s with track := s.track ++ [sym] }

/-- Write the encoder's registers. -/
def setEnc (f : Encoder → Encoder) (s : State) : State := { s with enc := f s.enc }

/-- The symbol of a data bit (40_encoder R136). -/
def bitSymbol (b : Bool) : Symbol := if b then .one else .zero

/-- The preamble length of a packet that starts in a run-mode (40_encoder R133, 30_encoding R89). -/
def preambleLen (p : Params) (m : RunMode) : Nat := if isProg m then p.preambleProg else p.preambleRun

/-- `IDLE`: packet start, first preamble bit (40_encoder R133). -/
def tickIdle (s : State) : State :=
  let buf := if s.mbxCnt = 0 then idleMsg else s.mbx
  let cnt := if s.mbxCnt = 0 then s.mbxCnt else s.mbxCnt - 1
  emit .one (setEnc (fun e => { e with
    buf := buf, xor := 0, idx := 0, cnt := BitVec.ofNat 8 (preambleLen s.params s.runMode - 1), state := .preamble })
    { s with mbxCnt := cnt })

/-- `PREAMBLE` (40_encoder R134). -/
def tickPreamble (s : State) : State :=
  emit .one (setEnc (fun e => { e with
    cnt := e.cnt - 1, state := if e.cnt - 1 = 0 then .byteStart else .preamble }) s)

/-- `BYTESTART`: start bit, and load of the next byte or of the checksum (40_encoder R135). -/
def tickByteStart (s : State) : State :=
  emit .zero (setEnc (fun e =>
    if e.idx.toNat < e.buf.size.toNat then
      { e with sr := payloadAt e.buf.payload e.idx, xor := e.xor ^^^ payloadAt e.buf.payload e.idx,
               idx := e.idx + 1, cnt := 8, state := .byte }
    else { e with sr := e.xor, cnt := 8, state := .xor }) s)

/-- One data bit, most significant first; `done` is the state after the eighth (40_encoder R136, R137). -/
def tickShift (here done : EncState) (s : State) : State :=
  emit (bitSymbol (s.enc.sr.getLsbD 7)) (setEnc (fun e => { e with
    sr := e.sr <<< 1, cnt := e.cnt - 1, state := if e.cnt - 1 = 0 then done else here }) s)

/-- `BYTE` (40_encoder R136). -/
def tickByte (s : State) : State := tickShift .byte .byteStart s

/-- `XOR` (40_encoder R137). -/
def tickXor (s : State) : State := tickShift .xor .endBit s

/-- `ENDBIT` (40_encoder R138). -/
def tickEndBit (s : State) : State :=
  emit .one (setEnc (fun e => { e with
    cut := s.cutoutEn, state := if s.cutoutEn then .cutout1 else .idle }) s)

/-- `CUTOUT1` (40_encoder R139). -/
def tickCutout1 (s : State) : State :=
  emit .gap (setEnc (fun e => { e with state := .cutout2 }) s)

/-- `CUTOUT2` (40_encoder R140). -/
def tickCutout2 (s : State) : State :=
  emit .gap (setEnc (fun e => { e with state := .idle }) s)

/-- One `ENC` tick (40_encoder R130): exactly one arm, exactly one symbol. -/
def encTick (s : State) : State :=
  match s.enc.state with
  | .idle => tickIdle s
  | .preamble => tickPreamble s
  | .byteStart => tickByteStart s
  | .byte => tickByte s
  | .xor => tickXor s
  | .endBit => tickEndBit s
  | .cutout1 => tickCutout1 s
  | .cutout2 => tickCutout2 s

/-- `n` consecutive `ENC` ticks. -/
def encTicks : Nat → State → State
  | 0, s => s
  | n + 1, s => encTicks n (encTick s)

/-- "Ready for next message" (40_encoder R142). -/
def encReady (s : State) : Bool := s.mbxCnt == 0

/-! ## Wire format (30_encoding R89) -/

/-- A byte's eight symbols, most significant bit first (30_encoding R89). -/
def byteSymbols (b : Byte) : List Symbol :=
  [7, 6, 5, 4, 3, 2, 1, 0].map fun i => bitSymbol (b.getLsbD i)

/-- A start bit and a byte (30_encoding R89). -/
def framedByte (b : Byte) : List Symbol := .zero :: byteSymbols b

/-- The packet of a message with a preamble of `n` ones (30_encoding R89). -/
def packetSymbols (n : Nat) (m : Message) : List Symbol :=
  List.replicate n .one ++ (msgBytes m).flatMap framedByte ++ framedByte (cksum m) ++ [.one]

/-- The length of a packet in ticks, `P + 9*size + 10` (40_encoder R141). -/
def packetTicks (n : Nat) (m : Message) : Nat := n + 9 * m.size.toNat + 10

/-! ## Line waveform (30_encoding R90; no rule reads it) -/

/-- One phase of the two output lines and the driver enable, with its duration in microseconds (30_encoding R90). -/
structure LinePhase where
  a : Bool
  b : Bool
  drvEn : Bool
  us : Nat
  deriving DecidableEq, Repr

/-- The line phases of a symbol: two half-periods, line `A` high in the first; a gap tick is half the cutout with the
driver disabled (30_encoding R90, 40_encoder R139, R140). -/
def symbolPhases (p : Params) : Symbol → List LinePhase
  | .one => [⟨true, false, true, p.t1HalfUs⟩, ⟨false, true, true, p.t1HalfUs⟩]
  | .zero => [⟨true, false, true, p.t0HalfUs⟩, ⟨false, true, true, p.t0HalfUs⟩]
  | .gap => [⟨false, false, false, p.cutoutGapUs / 2⟩]

/-- The waveform of a trace (30_encoding R90). -/
def waveform (p : Params) (l : List Symbol) : List LinePhase := l.flatMap (symbolPhases p)

/-- The duration of a trace in microseconds (70_reset R362). -/
def durationUs (p : Params) (l : List Symbol) : Nat := ((waveform p l).map fun x => x.us).sum

end Sys2Proof.Machine
end

