-- ==== Sys2Proof/Machine/Agents.lean ====
section
/-! DEFINITION. The agents and their atomic transitions: the `CORE` step (42_organizer R200), the host's offer, the
environment's changes, and the choice of the next transition (20_memory R66, 00_scope R8). -/

namespace Sys2Proof.Machine

/-- Execute the command word taken from the port, if any: an illegal word only answers `ST_ILLEGAL` (42_organizer R200,
R203; 30_encoding R85). -/
def runCommand (w : Option CmdWord) (s : State) : Result :=
  match w with
  | none => .next s
  | some w =>
    match decode s.params.extFuncs w with
    | .illegal _ => .next (respondIllegal s)
    | .ok i => exec i s

/-- The last part of a `CORE` step: dispatch if the mailbox is free (42_organizer R200). -/
def coreDispatch (s : State) : Result :=
  if s.mbxCnt = 0 then organizerDispatch s else .next s

/-- What a `CORE` step does after the command: `prog_step()`, then the dispatch (42_organizer R200). -/
def afterCommand (s : State) : Result :=
  andThen (progStep s) coreDispatch

/-- One `CORE` step: the offered word is taken from `CMD` and executed, then `prog_step()`, then the dispatch
(42_organizer R200, 10_state R21). -/
def coreStep (s : State) : Result :=
  andThen (runCommand s.cmd { s with cmd := none }) afterCommand

/-- `HOST` offers a word; at most one is pending, so an offer while one is pending does nothing (10_state R37, log 8). -/
def hostOffer (w : CmdWord) (s : State) : State :=
  match s.cmd with
  | none => { s with cmd := some w }
  | some _ => s

/-- One atomic transition (20_memory R66). -/
def perform (e : Event) (s : State) : Result :=
  match e with
  | .encTick => .next (encTick s)
  | .coreStep => coreStep s
  | .hostOffer w => .next (hostOffer w s)
  | .statusWrite code => writeRunMode code s
  | .cutoutInput en => .next { s with cutoutEn := en }
  | .clockAdvance ms => .next { s with clockMs := s.clockMs + BitVec.ofNat 32 ms }

/-- The next transition and the state without it: the head of the agenda, else a free choice (20_memory R66, log 1). -/
def nextEvent (s : State) : Event × State :=
  match s.agenda with
  | e :: rest => (e, { s with agenda := rest })
  | [] => (Config.freeEvent s.eventDraws, { s with eventDraws := s.eventDraws + 1 })

end Sys2Proof.Machine
end

