-- ==== Sys2Proof/Machine/Step.lean ====
section
/-! DEFINITION. One step of the whole machine: the next atomic transition (20_memory R66). -/

namespace Sys2Proof.Machine

/-- One step: the next atomic transition of the block and its environment (20_memory R66, 00_scope R8). -/
def step (s : State) : Host.Outcome State Fault Refusal :=
  perform (nextEvent s).1 (nextEvent s).2

/-- The state whose next step is a `CORE` step that takes exactly the given command word from the port. -/
def State.withFetchWord (s : State) (nbits w : Nat) : State :=
  { s with cmd := some (tableWord nbits w), agenda := .coreStep :: s.agenda }

end Sys2Proof.Machine
end

