-- ==== Sys2Proof/Machine/Assembler.lean ====
section
/-! DEFINITION. The command syntax and its pseudo-commands (30_encoding R87, R88): printing a command and a listing line,
and assembling a written line to its word. -/

namespace Sys2Proof

/-! ## Printing (30_encoding R87) -/

/-- The mnemonic of an opcode (30_encoding R84). -/
def Op.mnemonic : Op → String
  | .locoSpeed => "LOCO_SPEED"
  | .locoFgrp1 => "LOCO_FGRP1"
  | .locoFgrp2 => "LOCO_FGRP2"
  | .locoFgrp3 => "LOCO_FGRP3"
  | .locoFgrp4 => "LOCO_FGRP4"
  | .locoFgrp5 => "LOCO_FGRP5"
  | .locoForget => "LOCO_FORGET"
  | .bcastStop => "BCAST_STOP"
  | .accBasic => "ACC_BASIC"
  | .accExt => "ACC_EXT"
  | .pomLocoWrbyte => "POM_LOCO_WRBYTE"
  | .pomLocoWrbit => "POM_LOCO_WRBIT"
  | .pomLocoVerify => "POM_LOCO_VERIFY"
  | .pomAccWrbyte => "POM_ACC_WRBYTE"
  | .fastClock => "FAST_CLOCK"
  | .queryReady => "QUERY_READY"
  | .findActive => "FIND_ACTIVE"
  | .nextActive => "NEXT_ACTIVE"
  | .prevActive => "PREV_ACTIVE"
  | .progRegRead => "PROG_REG_READ"
  | .progRegWrite => "PROG_REG_WRITE"
  | .progPagedRead => "PROG_PAGED_READ"
  | .progPagedWrite => "PROG_PAGED_WRITE"
  | .progDirectRead => "PROG_DIRECT_READ"
  | .progDirectWrite => "PROG_DIRECT_WRITE"
  | .progDirectBitWrite => "PROG_DIRECT_BIT_WRITE"
  | .progDirectBitVerify => "PROG_DIRECT_BIT_VERIFY"
  | .progLongaddrRead => "PROG_LONGADDR_READ"
  | .progLongaddrWrite => "PROG_LONGADDR_WRITE"
  | .progQueryBitcap => "PROG_QUERY_BITCAP"
  | .progTerminate => "PROG_TERMINATE"
  | .progStatus => "PROG_STATUS"
  | .progValue => "PROG_VALUE"

/-- The spelling of an operand name (30_encoding R87). -/
def OperandName.text : OperandName → String
  | .addr => "addr"
  | .cv => "cv"
  | .data => "data"
  | .bit => "bit"
  | .val => "val"
  | .act => "act"
  | .emerg => "emerg"
  | .speed => "speed"
  | .aspect => "aspect"
  | .reg => "reg"
  | .min => "min"
  | .hour => "hour"
  | .wday => "wday"
  | .ratio => "ratio"
  | .dir => "dir"

/-- The named operands of a command, each with the number the user writes: CVs and registers are 1-based there
(30_encoding R81, R87). -/
def Instr.namedOperands : Instr → List (OperandName × Nat)
  | .locoSpeed a s => [(.addr, a.toNat), (.speed, s.toNat)]
  | .locoFgrp1 a d => [(.addr, a.toNat), (.data, d.toNat)]
  | .locoFgrp2 a d => [(.addr, a.toNat), (.data, d.toNat)]
  | .locoFgrp3 a d => [(.addr, a.toNat), (.data, d.toNat)]
  | .locoFgrp4 a d => [(.addr, a.toNat), (.data, d.toNat)]
  | .locoFgrp5 a d => [(.addr, a.toNat), (.data, d.toNat)]
  | .locoForget a => [(.addr, a.toNat)]
  | .bcastStop e => [(.emerg, e.toNat)]
  | .accBasic x c => [(.addr, x.toNat), (.act, c.toNat)]
  | .accExt e p => [(.addr, e.toNat), (.aspect, p.toNat)]
  | .pomLocoWrbyte a c d => [(.addr, a.toNat), (.cv, c.toNat + 1), (.data, d.toNat)]
  | .pomLocoWrbit a c b v => [(.addr, a.toNat), (.cv, c.toNat + 1), (.bit, b.toNat), (.val, v.toNat)]
  | .pomLocoVerify a c d => [(.addr, a.toNat), (.cv, c.toNat + 1), (.data, d.toNat)]
  | .pomAccWrbyte x c d => [(.addr, x.toNat), (.cv, c.toNat + 1), (.data, d.toNat)]
  | .fastClock mn h wd r => [(.min, mn.toNat), (.hour, h.toNat), (.wday, wd.toNat), (.ratio, r.toNat)]
  | .queryReady => []
  | .findActive a => [(.addr, a.toNat)]
  | .nextActive a => [(.addr, a.toNat)]
  | .prevActive a => [(.addr, a.toNat)]
  | .progRegRead r => [(.reg, r.toNat + 1)]
  | .progRegWrite r d => [(.reg, r.toNat + 1), (.data, d.toNat)]
  | .progPagedRead c => [(.cv, c.toNat + 1)]
  | .progPagedWrite c d => [(.cv, c.toNat + 1), (.data, d.toNat)]
  | .progDirectRead c => [(.cv, c.toNat + 1)]
  | .progDirectWrite c d => [(.cv, c.toNat + 1), (.data, d.toNat)]
  | .progDirectBitWrite c b v => [(.cv, c.toNat + 1), (.bit, b.toNat), (.val, v.toNat)]
  | .progDirectBitVerify c b v => [(.cv, c.toNat + 1), (.bit, b.toNat), (.val, v.toNat)]
  | .progLongaddrRead => []
  | .progLongaddrWrite a => [(.addr, a.toNat)]
  | .progQueryBitcap => []
  | .progTerminate => []
  | .progStatus => []
  | .progValue => []

/-- The text of a command: the mnemonic, then `name=value` operands separated by commas (30_encoding R87). -/
def Instr.text (i : Instr) : String :=
  let ops := i.namedOperands.map fun p => p.1.text ++ "=" ++ toString p.2
  if ops.isEmpty then i.op.mnemonic else i.op.mnemonic ++ " " ++ String.intercalate ", " ops

/-- The hexadecimal digit of a value below 16. -/
def hexDigit (n : Nat) : Char := "0123456789ABCDEF".toList.getD n '0'

/-- Four hexadecimal digits. -/
def hex16 (v : BitVec 16) : String :=
  String.ofList ([12, 8, 4, 0].map fun k => hexDigit ((v >>> k) &&& 0xF).toNat)

/-- The hexadecimal word of a listing, in groups of four digits as 30_encoding R87 writes it. -/
def hexWord (w : CmdWord) : String :=
  "0x" ++ String.intercalate "_" ([48, 32, 16, 0].map fun k => hex16 (w.extractLsb' k 16))

/-- A listing line: the hexadecimal word, then the text (30_encoding R87). -/
def Instr.listing (i : Instr) : String := hexWord (encode i) ++ " " ++ i.text

/-! ## Assembling (30_encoding R80, R84, R87) -/

/-- The value written for an operand name. -/
def operandValue (ops : List (OperandName × Nat)) (n : OperandName) : Nat :=
  (ops.lookup n).getD 0

/-- The operand names an opcode takes, in the order of 30_encoding R84. -/
def Op.operandNames : Op → List OperandName
  | .locoSpeed => [.addr, .speed]
  | .locoFgrp1 | .locoFgrp2 | .locoFgrp3 | .locoFgrp4 | .locoFgrp5 => [.addr, .data]
  | .locoForget | .findActive | .nextActive | .prevActive | .progLongaddrWrite => [.addr]
  | .bcastStop => [.emerg]
  | .accBasic => [.addr, .act]
  | .accExt => [.addr, .aspect]
  | .pomLocoWrbyte | .pomLocoVerify | .pomAccWrbyte => [.addr, .cv, .data]
  | .pomLocoWrbit => [.addr, .cv, .bit, .val]
  | .fastClock => [.min, .hour, .wday, .ratio]
  | .progRegRead => [.reg]
  | .progRegWrite => [.reg, .data]
  | .progPagedRead | .progDirectRead => [.cv]
  | .progPagedWrite | .progDirectWrite => [.cv, .data]
  | .progDirectBitWrite | .progDirectBitVerify => [.cv, .bit, .val]
  | .queryReady | .progLongaddrRead | .progQueryBitcap | .progTerminate | .progStatus | .progValue => []

/-- A value that fits a field of `n` bits, or none (a field is never truncated, 30_encoding R83). -/
def fitField (n v : Nat) : Option (BitVec n) :=
  if v < 2 ^ n then some (BitVec.ofNat n v) else none

/-- `ADDR` as a written command fills it (30_encoding R84). -/
def assembleAddr (o : Op) (v : OperandName → Nat) : Option (BitVec 16) :=
  match o with
  | .progRegRead | .progRegWrite => fitField 16 (v .reg)
  | .fastClock => do return ((← fitField 8 (v .ratio)) ++ (← fitField 8 (v .wday)) : BitVec 16)
  | _ => fitField 16 (v .addr)

/-- `DATA` as a written command fills it (30_encoding R84). -/
def assembleData (o : Op) (v : OperandName → Nat) : Option Byte :=
  match o with
  | .locoSpeed => fitField 8 (v .speed)
  | .accExt => fitField 8 (v .aspect)
  | .fastClock => fitField 8 (v .min)
  | _ => fitField 8 (v .data)

/-- `AUX` as a written command fills it (30_encoding R81, R84). -/
def assembleAux (o : Op) (v : OperandName → Nat) : Option Byte :=
  match o with
  | .bcastStop => fitField 8 (v .emerg)
  | .accBasic => fitField 8 (v .act)
  | .fastClock => fitField 8 (v .hour)
  | _ => do return ((← fitField 1 (v .val)) ++ (← fitField 3 (v .bit)) : BitVec 4).setWidth 8

/-- The fields a written command fills (30_encoding R80, R84). -/
def assembleFields (o : Op) (ops : List (OperandName × Nat)) : Option CmdFields := do
  let v := operandValue ops
  return { op := o.code, addr := ← assembleAddr o v, cv := ← fitField 16 (v .cv), data := ← assembleData o v,
           aux := ← assembleAux o v, rsv := 0 }

/-- The word a written command assembles to: an opcode and its named operands, each of the opcode's names once, in any
order (log 12); none where decoding would refuse the word (30_encoding R86, R87). -/
def assemble (ext : Bool) (o : Op) (ops : List (OperandName × Nat)) : Option CmdWord := do
  guard (ops.length = o.operandNames.length ∧ (o.operandNames.all fun n => ops.any fun p => p.1 == n) = true)
  let f ← assembleFields o ops
  match decodeFields ext f with
  | .ok _ => some (wordOf f)
  | .illegal _ => none

/-! ## Pseudo-commands (30_encoding R88) -/

/-- The internal speed byte `(d<<7) | n` of a direction bit and a magnitude (30_encoding R88, 00_scope R13). -/
def speedByte (d : Bool) (n : BitVec 7) : Byte := BitVec.ofBool d ++ n

/-- `fwd:N`, where `fwdIsOne` is the parameter `FWD_IS_ONE` (30_encoding R88). -/
def speedFwd (fwdIsOne : Bool) (n : BitVec 7) : Byte := speedByte fwdIsOne n

/-- `rev:N`, where `fwdIsOne` is the parameter `FWD_IS_ONE` (30_encoding R88). -/
def speedRev (fwdIsOne : Bool) (n : BitVec 7) : Byte := speedByte (!fwdIsOne) n

/-- `LOCO_STOP addr=a, dir=d` (30_encoding R88). -/
def Instr.locoStop (a : LocoAddr) (d : Bool) : Instr := .locoSpeed a (speedByte d 0)

/-- `LOCO_ESTOP addr=a, dir=d` (30_encoding R88). -/
def Instr.locoEstop (a : LocoAddr) (d : Bool) : Instr := .locoSpeed a (speedByte d 1)

/-- `ACC_ON addr=a` (30_encoding R88). -/
def Instr.accOn (x : BitVec 12) : Instr := .accBasic x true

/-- `ACC_OFF addr=a` (30_encoding R88). -/
def Instr.accOff (x : BitVec 12) : Instr := .accBasic x false

/-! ## Reading a line (30_encoding R87, R88) -/

/-- The value of a digit. -/
def digitVal (c : Char) : Option Nat :=
  if 48 ≤ c.toNat ∧ c.toNat ≤ 57 then some (c.toNat - 48)
  else if 65 ≤ c.toNat ∧ c.toNat ≤ 70 then some (c.toNat - 55)
  else if 97 ≤ c.toNat ∧ c.toNat ≤ 102 then some (c.toNat - 87)
  else none

/-- Digits of a base, after a value already read. -/
def digitsVal (base : Nat) : List Char → Nat → Option Nat
  | [], acc => some acc
  | c :: cs, acc =>
    match digitVal c with
    | some d => if d < base then digitsVal base cs (acc * base + d) else none
    | none => none

/-- A value, decimal or `0x` hexadecimal (30_encoding R87). -/
def numberOf : List Char → Option Nat
  | [] => none
  | '0' :: 'x' :: c :: cs => digitsVal 16 (c :: cs) 0
  | c :: cs => digitsVal 10 (c :: cs) 0

/-- A magnitude 0..127 after `fwd:` or `rev:` (30_encoding R87, R88). -/
def magnitudeOf (cs : List Char) : Option (BitVec 7) := (numberOf cs).bind (fitField 7)

/-- A value of an operand; `speed` may be `fwd:N` or `rev:N` (30_encoding R87). -/
def valueOf (fwdIsOne : Bool) (n : OperandName) (cs : List Char) : Option Nat :=
  match n, cs with
  | .speed, 'f' :: 'w' :: 'd' :: ':' :: r => (magnitudeOf r).map fun v => (speedFwd fwdIsOne v).toNat
  | .speed, 'r' :: 'e' :: 'v' :: ':' :: r => (magnitudeOf r).map fun v => (speedRev fwdIsOne v).toNat
  | _, _ => numberOf cs

/-- The operand names of the syntax (30_encoding R87, R88). -/
def OperandName.all : List OperandName :=
  [.addr, .cv, .data, .bit, .val, .act, .emerg, .speed, .aspect, .reg, .min, .hour, .wday, .ratio, .dir]

/-- A text without the blanks around it (30_encoding R87, log 12). -/
def trimBlanks (cs : List Char) : List Char :=
  ((cs.dropWhile fun c => c == ' ').reverse.dropWhile fun c => c == ' ').reverse

/-- A `name=value` operand, blanks around it dropped (30_encoding R87, log 12). -/
def operandOf (fwdIsOne : Bool) (cs : List Char) : Option (OperandName × Nat) := do
  let t := trimBlanks cs
  let n ← OperandName.all.find? fun n => n.text.toList == t.takeWhile fun c => c != '='
  let v ← valueOf fwdIsOne n ((t.dropWhile fun c => c != '=').drop 1)
  return (n, v)

/-- The operands of a line, separated by commas; no operands for a blank text (30_encoding R87). -/
def operandsOf (fwdIsOne : Bool) (cs : List Char) : Option (List (OperandName × Nat)) :=
  if cs.all fun c => c == ' ' then some []
  else (cs.splitOn ',').mapM (operandOf fwdIsOne)

/-- A pseudo-command's expansion: the opcode and operands it stands for, with `dir` 0 or 1 (30_encoding R88). DESIGN
CHOICE (log 12): a line that leaves `dir` out or writes it more than once has no expansion; the spec is silent. -/
def expand (mn : List Char) (ops : List (OperandName × Nat)) : Option (Op × List (OperandName × Nat)) :=
  let dirOps (m : Nat) : Option (Op × List (OperandName × Nat)) :=
    match ops.filter fun p => p.1 == .dir with
    | [(_, d)] =>
      if d ≤ 1 then some (.locoSpeed, (ops.filter fun p => p.1 != .dir) ++ [(.speed, d * 128 + m)]) else none
    | _ => none
  if mn = "LOCO_STOP".toList then dirOps 0
  else if mn = "LOCO_ESTOP".toList then dirOps 1
  else if mn = "ACC_ON".toList then some (.accBasic, ops ++ [(.act, 1)])
  else if mn = "ACC_OFF".toList then some (.accBasic, ops ++ [(.act, 0)])
  else (Op.all.find? fun o => o.mnemonic.toList == mn).map fun o => (o, ops)

/-- The word a line assembles to, where `ext` is `EXT_FUNCS` and `fwdIsOne` is `FWD_IS_ONE` (30_encoding R87, R88). -/
def assembleLine (ext fwdIsOne : Bool) (line : List Char) : Option CmdWord := do
  let ops ← operandsOf fwdIsOne (line.dropWhile fun c => c != ' ')
  let (o, ops) ← expand (line.takeWhile fun c => c != ' ') ops
  assemble ext o ops

/-- `assembleLine` on a string (30_encoding R87). -/
def assembleText (ext fwdIsOne : Bool) (line : String) : Option CmdWord :=
  assembleLine ext fwdIsOne line.toList

end Sys2Proof
end

