-- ==== Sys2Proof/Safety.lean ====
section
/-! DEFINITION. What claims are said in: which commands form a family, where the locomotive table holds an address, the
shape of the storage, and the invariants of the rules' prose. Predicates only; nothing here is run. -/

namespace Sys2Proof

/-! ## The opcode table -/

/-- A row of spec/opcode_table.json: `match` and `mask`. The mask holds the opcode, the reserved and unused fields, and
the bits of a used field above its width (30_encoding R83, R84). -/
def Op.tableRow : Op → CmdWord × CmdWord
  | .locoSpeed => (0x0100000000000000, 0xFF0000FFFF00FFFF)
  | .locoFgrp1 => (0x0200000000000000, 0xFF0000FFFFE0FFFF)
  | .locoFgrp2 => (0x0300000000000000, 0xFF0000FFFFF0FFFF)
  | .locoFgrp3 => (0x0400000000000000, 0xFF0000FFFFF0FFFF)
  | .locoFgrp4 => (0x0500000000000000, 0xFF0000FFFF00FFFF)
  | .locoFgrp5 => (0x0600000000000000, 0xFF0000FFFF00FFFF)
  | .locoForget => (0x0700000000000000, 0xFF0000FFFFFFFFFF)
  | .bcastStop => (0x0800000000000000, 0xFFFFFFFFFFFFFEFF)
  | .accBasic => (0x1000000000000000, 0xFFF000FFFFFFFEFF)
  | .accExt => (0x1100000000000000, 0xFFF800FFFFE0FFFF)
  | .pomLocoWrbyte => (0x1800000000000000, 0xFF0000000000FFFF)
  | .pomLocoWrbit => (0x1900000000000000, 0xFF00000000FFF0FF)
  | .pomLocoVerify => (0x1A00000000000000, 0xFF0000000000FFFF)
  | .pomAccWrbyte => (0x1B00000000000000, 0xFFFE00000000FFFF)
  | .fastClock => (0x2000000000000000, 0xFF00F8FFFF0000FF)
  | .queryReady => (0x2800000000000000, 0xFFFFFFFFFFFFFFFF)
  | .findActive => (0x2900000000000000, 0xFF0000FFFFFFFFFF)
  | .nextActive => (0x2A00000000000000, 0xFF0000FFFFFFFFFF)
  | .prevActive => (0x2B00000000000000, 0xFF0000FFFFFFFFFF)
  | .progRegRead => (0x4000000000000000, 0xFF0000FFFFFFFFFF)
  | .progRegWrite => (0x4100000000000000, 0xFF0000FFFF00FFFF)
  | .progPagedRead => (0x4200000000000000, 0xFFFFFF0000FFFFFF)
  | .progPagedWrite => (0x4300000000000000, 0xFFFFFF000000FFFF)
  | .progDirectRead => (0x4400000000000000, 0xFFFFFF0000FFFFFF)
  | .progDirectWrite => (0x4500000000000000, 0xFFFFFF000000FFFF)
  | .progDirectBitWrite => (0x4600000000000000, 0xFFFFFF0000FFF0FF)
  | .progDirectBitVerify => (0x4700000000000000, 0xFFFFFF0000FFF0FF)
  | .progLongaddrRead => (0x4800000000000000, 0xFFFFFFFFFFFFFFFF)
  | .progLongaddrWrite => (0x4900000000000000, 0xFF0000FFFFFFFFFF)
  | .progQueryBitcap => (0x4A00000000000000, 0xFFFFFFFFFFFFFFFF)
  | .progTerminate => (0x4B00000000000000, 0xFFFFFFFFFFFFFFFF)
  | .progStatus => (0x4C00000000000000, 0xFFFFFFFFFFFFFFFF)
  | .progValue => (0x4D00000000000000, 0xFFFFFFFFFFFFFFFF)

/-- `ADDR` of a word as a number (30_encoding R80). -/
def addrNat (w : CmdWord) : Nat := (w.toNat / 2 ^ 40) % 2 ^ 16

/-- `CV` of a word as a number (30_encoding R80). -/
def cvNat (w : CmdWord) : Nat := (w.toNat / 2 ^ 24) % 2 ^ 16

/-- The ranges the mask of a row does not impose: locomotive address 1..10239, CV 1..1024, register 1..8, minute 0..59,
hour 0..23, weekday 0..6, ratio 0..63 (30_encoding R83, R84). -/
def Op.rangeOk (w : CmdWord) : Op → Prop
  | .locoSpeed | .locoFgrp1 | .locoFgrp2 | .locoFgrp3 | .locoFgrp4 | .locoFgrp5 | .locoForget =>
    1 ≤ addrNat w ∧ addrNat w ≤ 10239
  | .findActive | .progLongaddrWrite => 1 ≤ addrNat w ∧ addrNat w ≤ 10239
  | .nextActive | .prevActive => addrNat w ≤ 10239
  | .pomLocoWrbyte | .pomLocoWrbit | .pomLocoVerify =>
    1 ≤ addrNat w ∧ addrNat w ≤ 10239 ∧ 1 ≤ cvNat w ∧ cvNat w ≤ 1024
  | .pomAccWrbyte => 1 ≤ cvNat w ∧ cvNat w ≤ 1024
  | .progPagedRead | .progPagedWrite | .progDirectRead | .progDirectWrite | .progDirectBitWrite
  | .progDirectBitVerify => 1 ≤ cvNat w ∧ cvNat w ≤ 1024
  | .progRegRead | .progRegWrite => 1 ≤ addrNat w ∧ addrNat w ≤ 8
  | .fastClock =>
    (w.toNat / 2 ^ 16) % 2 ^ 8 ≤ 59 ∧ (w.toNat / 2 ^ 8) % 2 ^ 8 ≤ 23 ∧ addrNat w % 2 ^ 8 ≤ 6 ∧ addrNat w / 2 ^ 8 ≤ 63
  | .bcastStop | .accBasic | .accExt | .queryReady | .progLongaddrRead | .progQueryBitcap => True
  | .progTerminate | .progStatus | .progValue => True

/-- A word is one the opcode table allows: it matches a row, its fields are in range, and the row exists for this
`EXT_FUNCS` (30_encoding R83, R84). -/
def TableLegal (ext : Bool) (w : CmdWord) : Prop :=
  ∃ o : Op, w &&& o.tableRow.2 = o.tableRow.1 ∧ o.rangeOk w ∧ (o = .locoFgrp4 ∨ o = .locoFgrp5 → ext = true)

end Sys2Proof

namespace Sys2Proof.Machine

/-! ## Families of commands -/

/-- The function-group commands, with their address, group and bits (42_organizer R205). -/
def groupCommand : Instr → Option (LocoAddr × Nat × Byte)
  | .locoFgrp1 a d => some (a, 1, d.setWidth 8)
  | .locoFgrp2 a d => some (a, 2, d.setWidth 8)
  | .locoFgrp3 a d => some (a, 3, d.setWidth 8)
  | .locoFgrp4 a d => some (a, 4, d)
  | .locoFgrp5 a d => some (a, 5, d)
  | _ => none

/-- The commands that only enqueue a message, with that message (42_organizer R208, R209). -/
def enqueueCommand (p : Params) : Instr → Option Message
  | .accBasic x c => some (accMsg p x c)
  | .accExt e a => some (xaccMsg p e a)
  | .pomLocoWrbyte a c d => some (pomWriteMsg p a c d)
  | .pomLocoWrbit a c b v => some (pomBitMsg p a c b v)
  | .pomLocoVerify a c d => some (pomVerifyMsg p a c d)
  | .pomAccWrbyte x c d => some (pomAccMsg p x c d)
  | .fastClock mn h wd r => some (fastClockMsg p mn h wd r)
  | _ => none

/-- The task a command starts (43_programmer R261). -/
def taskOf : Instr → Option TaskOp
  | .progRegRead _ => some .regRead
  | .progRegWrite _ _ => some .regWrite
  | .progPagedRead _ => some .pagedRead
  | .progPagedWrite _ _ => some .pagedWrite
  | .progDirectRead _ => some .directRead
  | .progDirectWrite _ _ => some .directWrite
  | .progDirectBitWrite _ _ _ => some .bitWrite
  | .progDirectBitVerify _ _ _ => some .bitVerify
  | .progLongaddrRead => some .longaddrRead
  | .progLongaddrWrite _ => some .longaddrWrite
  | .progQueryBitcap => some .queryBitcap
  | _ => none

/-! ## The locomotive table -/

/-- Entry `i` is the first that holds address `a`. -/
def HoldsAt (l : List LocoEntry) (a : LocoAddr) (i : Nat) : Prop :=
  i < l.length ∧ (locoAt l i).addr = a ∧ ∀ j, j < i → (locoAt l j).addr ≠ a

/-- No entry holds address `a`. -/
def Absent (l : List LocoEntry) (a : LocoAddr) : Prop :=
  ∀ j, j < l.length → (locoAt l j).addr ≠ a

/-- Entry `i` has the largest `refresh` of the table, and is the first that has it. -/
def StalestAt (l : List LocoEntry) (i : Nat) : Prop :=
  i < l.length ∧ (∀ j, j < l.length → (locoAt l j).refresh.toNat ≤ (locoAt l i).refresh.toNat) ∧
  ∀ j, j < i → (locoAt l j).refresh.toNat < (locoAt l i).refresh.toNat

/-- Entry `i` is where a new address goes: the first empty slot, or in a full table the stalest entry
(42_organizer R210). -/
def RoomAt (l : List LocoEntry) (i : Nat) : Prop :=
  HoldsAt l 0 i ∨ (Absent l 0 ∧ StalestAt l i)

/-- What `loco_get(a)` answers: entry `i` with contents `e`, new or not (42_organizer R210). -/
def GotEntry (s : State) (a : LocoAddr) (i : Nat) (e : LocoEntry) (isNew : Bool) : Prop :=
  (HoldsAt s.loco a i ∧ e = locoAt s.loco i ∧ isNew = false) ∨
  (Absent s.loco a ∧ RoomAt s.loco i ∧ isNew = true ∧
    e = { addr := a, speed := 0, format := formatOf s.params a, active := true, funcs := 0, refresh := 0 })

/-- Address `a` is in the set `S` of active addresses (42_organizer R217). -/
def ActiveAddr (l : List LocoEntry) (a : Nat) : Prop :=
  ∃ e, e ∈ l ∧ e.addr.toNat = a ∧ e.addr ≠ 0 ∧ e.active = true

/-! ## Shape of the storage -/

/-- A ring of `n` slots whose pointers are slot numbers (10_state R30). -/
def Ring.Ok (n : Nat) (q : Ring) : Prop :=
  q.slots.length = n ∧ q.rd < n ∧ q.wr < n

/-- Every capacity, pointer and cursor is in its range (10_state R30 to R34), for parameters that meet their
constraints (00_scope R7). -/
structure Shaped (s : State) : Prop where
  params : s.params.valid = true
  smq : s.smq.Ok s.params.smqSize
  hpq : s.hpq.Ok s.params.hpqSize
  lpq : s.lpq.Ok s.params.lpqSize
  rpt : s.rpt.length = s.params.rptSize
  loco : s.loco.length = s.params.locoSize
  cursor : s.rfCursor < s.params.locoSize
  level : s.rfLevel < refreshLevels s.params

/-- The locomotive table: an address once, `active` exactly in the non-empty slots, `refresh` bounded by `STALE_MAX`
(10_state R33, 42_organizer R211, R222). -/
structure TableOk (s : State) : Prop where
  once : ∀ i j, i < s.loco.length → j < s.loco.length → (locoAt s.loco i).addr ≠ 0 →
    (locoAt s.loco i).addr = (locoAt s.loco j).addr → i = j
  active : ∀ i, i < s.loco.length → ((locoAt s.loco i).active = true ↔ (locoAt s.loco i).addr ≠ 0)
  bounded : ∀ i, i < s.loco.length → (locoAt s.loco i).refresh.toNat ≤ s.params.staleMax

/-! ## The programmer -/

/-- The values of `SEQ_PC` a task lists (43_programmer R280 to R286). -/
def pcListed : TaskOp → BitVec 3 → Bool
  | .pagedRead, pc => pc == 0 || pc == 1
  | .pagedWrite, pc => pc == 0 || pc == 1
  | .longaddrRead, pc => longaddrReadLists pc
  | .longaddrWrite, pc => longaddrWriteLists pc
  | .regRead, pc => pc == 0
  | .regWrite, pc => pc == 0
  | .directRead, pc => pc == 0
  | .directWrite, pc => pc == 0
  | .bitWrite, pc => pc == 0
  | .bitVerify, pc => pc == 0
  | .queryBitcap, pc => pc == 0

/-- The three layers nest: a task is in flight exactly outside `S_IDLE` (43_programmer R290), the byte layer works only
in `S_STEP`, an inner operation belongs to a running byte operation (R273), and the running task's `SEQ_PC` is one it
lists (93_implementation_defined I9). -/
structure LayersOk (g : Programmer) : Prop where
  busy : g.prBusy = true ↔ g.seqState ≠ .idle
  byte : g.byteBusy = true → g.seqState = .step ∧ g.byteDone = false
  byteDone : g.byteDone = true → g.seqState = .step
  inner : g.innerState ≠ .idle → g.byteBusy = true
  pc : g.seqState ≠ .idle → ∃ op, g.seqOp = some op ∧ pcListed op g.seqPc = true

/-- The values `PR_RESULT` is ever given: codes 0x00 to 0x0B and `NONE` (60_exceptions R325), `NONE` not once a task has
called `finish` (43_programmer R271, R290). -/
def ResultOk (g : Programmer) : Prop :=
  (g.prResult.toNat ≤ 0x0B ∨ g.prResult = resultNone) ∧ (g.seqState = .exit → g.prResult ≠ resultNone)

/-- The task steps under the run-mode it needs, so supervision lets `prog_step` through (43_programmer R263, R264). -/
def Stepping (s : State) : Prop :=
  s.prog.seqState = .step ∧ s.runMode = .progOkay

/-- It is the byte layer's turn (43_programmer R264). -/
def ByteTurn (s : State) : Prop :=
  Stepping s ∧ s.prog.byteBusy = true ∧ (s.prog.innerState = .idle ∨ s.prog.innerState = .done)

/-- It is the sequence layer's turn (43_programmer R264). -/
def SeqTurn (s : State) : Prop :=
  Stepping s ∧ s.prog.byteBusy = false ∧ (s.prog.innerState = .idle ∨ s.prog.innerState = .done)

/-- The registers after `finish(code)` (43_programmer R271). -/
def finished (code : Byte) (g : Programmer) : Programmer :=
  { g with prResult := code, innerState := .idle, byteBusy := false, byteDone := false, seqState := .exit }

/-- The registers after `inner_start(pkt, wr)` (43_programmer R267). -/
def innerStarted (pkt : Message) (wr : Bool) (g : Programmer) : Programmer :=
  { g with innerPkt := pkt, innerWr := wr, innerAck := false, innerState := .pre }

/-- The registers after `byte_start(op, mode, tgt, data, bit, bitval)` (43_programmer R273). -/
def byteStarted (op : ByteOp) (mode : ByteMode) (tgt : CvAddr) (data : Byte) (bit : BitPos) (val : Bool)
    (g : Programmer) : Programmer :=
  { g with byteOp := op, byteMode := mode, byteTgt := tgt, byteData := data, byteBit := bit, byteBitval := val,
           byteI := 0, byteAcc := 0, byteA0 := false, byteVal := 0, byteDone := false, byteBusy := true,
           bytePh := if op = .scanRead then .scan else .cap }

/-- The registers after `byte_done(r)` (43_programmer R273). -/
def byteEnded (r : ByteRes) (g : Programmer) : Programmer :=
  { g with byteRes := r, byteBusy := false, byteDone := true }

/-- With no byte result waiting, the turn leaves the registers `g` and changes nothing else (43_programmer R280). -/
def Issues (s : State) (g : Programmer) : Prop :=
  s.prog.byteDone = false → progStep s = .next { s with prog := g }

/-- With the byte result `r` waiting, the turn leaves the registers `g` and changes nothing else (43_programmer R280). -/
def Results (s : State) (r : ByteRes) (g : Programmer → Programmer) : Prop :=
  s.prog.byteDone = true → s.prog.byteRes = r → progStep s = .next { s with prog := g { s.prog with byteDone := false } }

/-- The three results other than `BR_OK` end the task with the codes of `map(r)` (43_programmer R289). -/
def FailsMapped (s : State) : Prop :=
  Results s .noAck (finished 0x02) ∧ Results s .noDec (finished 0x04) ∧ Results s .bitErr (finished 0x06)

/-- The three results other than `BR_OK` end the task with one code. -/
def FailsWith (s : State) (g : Programmer → Programmer) : Prop :=
  Results s .noAck g ∧ Results s .noDec g ∧ Results s .bitErr g

/-- A read's result: the value on `BR_OK`, else `map(r)` (43_programmer R280 to R282). -/
def ReadEnds (s : State) : Prop :=
  Results s .ok (fun g => finished 0x00 { g with prValue := s.prog.byteVal.setWidth 16 }) ∧ FailsMapped s

/-- A write's result: `SUCCESS` on `BR_OK`, else `map(r)` (43_programmer R280 to R282). -/
def WriteEnds (s : State) : Prop :=
  Results s .ok (finished 0x00) ∧ FailsMapped s

/-- One inner operation as the byte layer sees it: it issues a packet, and consumes the outcome `a`
(43_programmer R273). -/
def probeRound (s : State) (a : Bool) : State :=
  byteStep (setProg (fun g => { g with innerState := .done, innerAck := a }) (byteStep s))

/-- The `n` coming samples of the acknowledgment input: the settled ones, then free draws (10_state R27). -/
def ackSamplesOf (n : Nat) (s : State) : List Bool :=
  s.ackIn.take n ++ (List.range (n - s.ackIn.length)).map fun k => Config.freeAck (s.ackDraws + k)

/-! ## Message sizes -/

/-- Every message that waits to be dispatched has a legal size (10_state R24). -/
structure SizesOk (s : State) : Prop where
  smq : ∀ m ∈ s.smq.slots, sizeOk m = true
  hpq : ∀ m ∈ s.hpq.slots, sizeOk m = true
  lpq : ∀ m ∈ s.lpq.slots, sizeOk m = true
  rpt : ∀ e ∈ s.rpt, sizeOk e.msg = true
  inner : sizeOk s.prog.innerPkt = true

/-- If the word on the port spells `FAST_CLOCK`, the OPEN builder keeps its constraint for it (41_builders R174). -/
def ClockBuilderOk (s : State) : Prop :=
  ∀ w mn h wd r, s.cmd = some w → decode s.params.extFuncs w = .ok (.fastClock mn h wd r) →
    sizeOk (fastClockMsg s.params mn h wd r) = true

/-! ## Queues and repeats -/

/-- At most one waiting entry of a key that is not RAW (42_organizer R213). -/
def KeysOnce (l : List Message) : Prop :=
  ∀ (i j : Nat) (x y : Message), l[i]? = some x → l[j]? = some y → (keyOf x).isRaw = false → keyOf x = keyOf y → i = j

/-- Exactly one pending repeat-count per key (42_organizer R214). -/
def RptKeysOnce (l : List RptEntry) : Prop :=
  ∀ (i j : Nat) (x y : RptEntry), l[i]? = some x → l[j]? = some y → x.cnt ≠ 0 → y.cnt ≠ 0 → keyOf x.msg = keyOf y.msg → i = j

/-- The candidate differs from the message just sent (42_organizer R201; same is 00_scope R11). -/
def Differs (s : State) (m : Message) : Prop :=
  s.lastValid = false ∨ ¬ (m.size = s.last.size ∧ msgBytes m = msgBytes s.last)

/-- The queue head, if any, is withheld as equal to the message just sent (42_organizer R201). -/
def Withheld (s : State) (q : Ring) : Prop :=
  ∀ m, q.head = some m → ¬ Differs s m

/-- What an enqueue of `m` by a locomotive command leaves in the queues and the repeat buffer, where `hp` asks for the
copy to `HPQ` and `full` says that a push failed (42_organizer R203, R204, R215). -/
def Enqueued (m : Message) (hp full : Bool) (s t : State) : Prop :=
  (isProg s.runMode = true →
    full = s.smq.full ∧ t.smq = (s.smq.push m).getD s.smq ∧ t.lpq = s.lpq ∧ t.hpq = s.hpq ∧ t.rpt = s.rpt) ∧
  (isProg s.runMode = false →
    full = ((lpInsertRing s.lpq m).isNone || (hp && s.hpq.full)) ∧ t.smq = s.smq ∧
    t.lpq = (lpInsertRing s.lpq m).getD s.lpq ∧ t.hpq = (if hp then (s.hpq.push m).getD s.hpq else s.hpq) ∧
    t.rpt = rptClear (keyOf m) s.rpt)

/-- The refresh candidate `m` is due where the sweep stands: the entry under the cursor is active, and the level names its
speed or a function group of it that is not all zero (42_organizer R220, R221). -/
def Due (p : Params) (w : Sweep) (m : Message) : Prop :=
  (locoAt w.loco w.cursor).addr ≠ 0 ∧ (locoAt w.loco w.cursor).active = true ∧
  ((w.level % 2 = 0 ∧
      m = speedMsg p (locoAt w.loco w.cursor).addr (locoAt w.loco w.cursor).speed (locoAt w.loco w.cursor).format
        ((locoAt w.loco w.cursor).funcs.getLsbD 0)) ∨
   (w.level % 2 = 1 ∧ groupBits (locoAt w.loco w.cursor).funcs ((w.level + 1) / 2) ≠ 0 ∧
      m = groupMsg p (locoAt w.loco w.cursor).addr ((w.level + 1) / 2) (locoAt w.loco w.cursor).funcs))

/-- The scheduler's registers and table, `k` iterations of `refresh_next()` later (42_organizer R220). -/
def sweepAfter (k : Nat) (s : State) : Sweep :=
  (advanceCursor s.params)^[k] { cursor := s.rfCursor, level := s.rfLevel, loco := s.loco }

/-- A built message: repeat, type, a legal size, and zeros beyond it (41_builders R160). -/
def BuiltAs (m : Message) (rep : Byte) (type : MsgType) (size : Nat) : Prop :=
  m.rep = rep ∧ m.type = type ∧ m.size.toNat = size ∧ 2 ≤ size ∧ size ≤ 5 ∧
  ∀ k, size ≤ k → (payloadBytes m.payload).getD k 0 = 0

/-- A message's meaningful bytes as numbers. -/
def byteValues (m : Message) : List Nat := (msgBytes m).map BitVec.toNat

/-- The bytes of a locomotive address as numbers (41_builders R161). -/
def addrValues (p : Params) (a : LocoAddr) : List Nat :=
  if a.toNat < p.longAddrMin then [a.toNat] else [0xC0 + a.toNat / 256, a.toNat % 256]

/-- The state after a dispatch of `m`, `n` times, by branch `src` (20_memory R63). -/
def Dispatched (m : Message) (n : Byte) (src : MbxSrc) (s : State) : State :=
  { s with mbx := m, mbxCnt := n, mbxSrc := src, last := m, lastValid := true }

/-- The response of an enqueue: flags in bits 18:16, everything else 0 (10_state R38, 42_organizer R215). -/
def flagsResponse (full hp new : Bool) : Response :=
  (0#5 ++ BitVec.ofBool full ++ BitVec.ofBool hp ++ BitVec.ofBool new ++ 0#16 : BitVec 24)

/-! ## The encoder -/

/-- The exclusive-or of the first `n` payload bytes. -/
def xorUpTo (m : Message) (n : Nat) : Byte :=
  ((msgBytes m).take n).foldl (fun a b => a ^^^ b) 0

/-- The encoder's registers say where in its packet it is (40_encoder R133 to R138): the index counts the loaded bytes,
`ENC_XOR` is their running checksum, a bit counter is never 0 in a state that counts. -/
structure EncoderOk (e : Encoder) : Prop where
  size : sizeOk e.buf = true
  idx : e.idx.toNat ≤ e.buf.size.toNat
  start : e.state = .preamble → e.idx = 0
  counting : (e.state = .preamble ∨ e.state = .byte ∨ e.state = .xor) → e.cnt ≠ 0
  bits : (e.state = .byte ∨ e.state = .xor) → e.cnt.toNat ≤ 8
  loaded : e.state = .byte → e.idx ≠ 0
  running : (e.state = .preamble ∨ e.state = .byteStart ∨ e.state = .byte) → e.xor = xorUpTo e.buf e.idx.toNat
  summed : (e.state = .xor ∨ e.state = .endBit) → e.idx = e.buf.size ∧ e.xor = cksum e.buf

/-- Two encoders agree in all but the repeat and type of the message they hold, which they do not read
(40_encoder R144). -/
def SameWire (e e' : Encoder) : Prop :=
  e.buf.size = e'.buf.size ∧ e.buf.payload = e'.buf.payload ∧ e' = { e with buf := e'.buf }

end Sys2Proof.Machine
end

