-- ==== Sys2Proof/Certificates/Slice0/Obligations.lean ====
section
/-! DEFINITION. The statements for the provers, one `def Obligations.<Name> : Prop` each; the docstring names the rules of
spec/ it states. -/

section Statements

open Sys2Proof Sys2Proof.Machine

/-! ## Encoding -/

/-- 30_encoding R80, R81, R83, R84, R86: a well-formed command comes back from its word, every operand at every value. -/
def Obligations.DecodeEncodeRoundTrip : Prop :=
  ∀ (ext : Bool) (i : Instr), i.wellFormed ext = true → decode ext (encode i) = .ok i

/-- 30_encoding R80, R83, R84, R86: a word decodes only to a well-formed command, and only to the one it is the word of;
so no two words spell one command. -/
def Obligations.DecodedWordIsEncoded : Prop :=
  ∀ (ext : Bool) (w : CmdWord) (i : Instr), decode ext w = .ok i → i.wellFormed ext = true ∧ encode i = w

/-- 30_encoding R80, R81, R84: words written out from the field table, one or two for each family. -/
def Obligations.KnownWordsDecode : Prop :=
  decode true 0x0100030000420000 = .ok (.locoSpeed 3 0x42) ∧
  decode true 0x0200030000010000 = .ok (.locoFgrp1 3 1) ∧
  decode true 0x0800000000000100 = .ok (.bcastStop true) ∧
  decode true 0x100FFF0000000100 = .ok (.accBasic 4095 true) ∧
  decode true 0x190003001D000D00 = .ok (.pomLocoWrbit 3 28 5 true) ∧
  decode true 0x20040300001E0C00 = .ok (.fastClock 30 12 3 4) ∧
  decode true 0x2A00280000000000 = .ok (.nextActive 40) ∧
  decode true 0x4100080000030000 = .ok (.progRegWrite 7 3) ∧
  decode true 0x470000001D000D00 = .ok (.progDirectBitVerify 28 5 true) ∧
  decode true 0x4B00000000000000 = .ok .progTerminate

/-- 30_encoding R85: every word is either one command of the opcode table or illegal, and an illegal word only answers
`{0xC0, 0}`. `TableLegal` reads the table's `match` and `mask`, not the decoder. -/
def Obligations.IllegalWordsRule : Prop :=
  ∀ (w : CmdWord) (s : State),
    (TableLegal s.params.extFuncs w →
      ∃ i, i.wellFormed s.params.extFuncs = true ∧ encode i = w ∧ runCommand (some w) s = exec i s) ∧
    (¬ TableLegal s.params.extFuncs w → runCommand (some w) s = .next { s with resp := 0xC00000 })

/-- 30_encoding R87: a command written with its mnemonic and named operands assembles to its word. -/
def Obligations.AssembledCommandIsItsWord : Prop :=
  ∀ (ext : Bool) (i : Instr), i.wellFormed ext = true → assemble ext i.op i.namedOperands = some (encode i)

/-! ## The step -/

/-- 42_organizer R200, R203: a step that is a `CORE` step takes the word on the port, runs the command it spells by
`exec`, then `prog_step`, then the dispatch if the mailbox is free. A placed word (`withFetchWord`) is the next to run. -/
def Obligations.StepRunsDecodedCommand : Prop :=
  (∀ (s : State) (w : CmdWord) (i : Instr), (nextEvent s).1 = .coreStep → (nextEvent s).2.cmd = some w →
    decode s.params.extFuncs w = .ok i →
    step s = andThen (exec i { (nextEvent s).2 with cmd := none }) afterCommand) ∧
  (∀ (s : State) (nbits n : Nat) (i : Instr), decode s.params.extFuncs (tableWord nbits n) = .ok i →
    step (s.withFetchWord nbits n) = andThen (exec i { s with cmd := none }) afterCommand) ∧
  (∀ (s : State) (rest : List Event), s.agenda = .coreStep :: rest →
    (nextEvent s).1 = .coreStep ∧ (nextEvent s).2 = { s with agenda := rest }) ∧
  (∀ s : State, afterCommand s =
    andThen (progStep s) (fun t => if t.mbxCnt = 0 then organizerDispatch t else .next t))

/-- 20_memory R66, 10_state R22, R28, R29, R37: what the other atomic transitions do; which one comes next when none is
settled is the model's free choice (log 1), and an offer while a word is pending does nothing (log 8). -/
def Obligations.OtherTransitions : Prop :=
  ∀ (s : State) (rest : List Event),
    step { s with agenda := .encTick :: rest } = .next (encTick { s with agenda := rest }) ∧
    (s.cmd = none → step { s with agenda := .coreStep :: rest } = afterCommand { s with agenda := rest }) ∧
    (∀ w, step { s with agenda := .hostOffer w :: rest } =
      .next { s with agenda := rest, cmd := some (s.cmd.getD w) }) ∧
    (∀ m, step { s with agenda := .statusWrite (modeCode m) :: rest } = .next { s with agenda := rest, runMode := m }) ∧
    (∀ c : BitVec 4, 9 ≤ c.toNat → step { s with agenda := .statusWrite c :: rest } = .fault (.badRunMode c)) ∧
    (∀ b, step { s with agenda := .cutoutInput b :: rest } = .next { s with agenda := rest, cutoutEn := b }) ∧
    (∀ ms, step { s with agenda := .clockAdvance ms :: rest } =
      .next { s with agenda := rest, clockMs := s.clockMs + BitVec.ofNat 32 ms })

/-! ## Reset -/

/-- 70_reset R350: the reset value of every state element, for any parameters. -/
def Obligations.ResetValues : Prop :=
  State.reset = State.resetWith Params.default ∧
  ∀ p : Params,
    let s := State.resetWith p
    let idle : Message := ⟨0, 2, .void, ⟨0xFF, 0x00, 0, 0, 0, 0⟩⟩
    s.params = p ∧ s.runMode = p.initRunMode ∧ s.mbx = idle ∧ s.mbxCnt = 0 ∧ s.mbxSrc = .noSrc ∧
    s.enc = ⟨.idle, idle, 0, 0, 0, 0, false⟩ ∧
    s.smq = ⟨List.replicate p.smqSize idle, 0, 0⟩ ∧ s.hpq = ⟨List.replicate p.hpqSize idle, 0, 0⟩ ∧
    s.lpq = ⟨List.replicate p.lpqSize idle, 0, 0⟩ ∧
    s.rpt = List.replicate p.rptSize ⟨idle, 0⟩ ∧
    s.loco = List.replicate p.locoSize ⟨0, 0, .f14, false, 0, 0⟩ ∧
    s.rfCursor = 0 ∧ s.rfLevel = 0 ∧ s.last = idle ∧ s.lastValid = false ∧
    s.prog = ⟨.idle, none, 0, 0, 0, 0, 0, false, 0, 0, .runOkay, false, false, .writeByte, .cap, false, .direct, 0, 0, 0,
      false, 0, 0, false, .ok, 0, .idle, idle, false, false, .unknown, 0, false, 0, 0, false, 0xFF, 0⟩ ∧
    s.cmd = none ∧ s.resp = 0

/-- 70_reset R350 with the invariants below: reset meets every one of them, for all parameters that meet their
constraints. -/
def Obligations.ResetMeetsInvariants : Prop :=
  ∀ p : Params, p.valid = true →
    Shaped (State.resetWith p) ∧ TableOk (State.resetWith p) ∧ LayersOk (State.resetWith p).prog ∧
    ResultOk (State.resetWith p).prog ∧ SizesOk (State.resetWith p) ∧ EncoderOk (State.resetWith p).enc ∧
    sizeOk (State.resetWith p).mbx = true ∧ KeysOnce (State.resetWith p).lpq.live ∧ RptKeysOnce (State.resetWith p).rpt

/-! ## The track encoder -/

/-- 40_encoder R130 to R132, R40: a tick emits exactly one symbol, moves along the cycle of states, and writes nothing
but the encoder's registers and the mailbox count. -/
def Obligations.TickEmitsOneSymbol : Prop :=
  ∀ s : State, ∃ x : Symbol,
    encTick s = { s with enc := (encTick s).enc, mbxCnt := (encTick s).mbxCnt, track := s.track ++ [x] } ∧
    (x = .gap ↔ s.enc.state = .cutout1 ∨ s.enc.state = .cutout2) ∧
    (s.enc.state ≠ .idle → (encTick s).mbxCnt = s.mbxCnt ∧ (encTick s).enc.buf = s.enc.buf) ∧
    (match s.enc.state with
      | .idle => (encTick s).enc.state = .preamble
      | .preamble => (encTick s).enc.state = .preamble ∨ (encTick s).enc.state = .byteStart
      | .byteStart => (encTick s).enc.state = .byte ∨ (encTick s).enc.state = .xor
      | .byte => (encTick s).enc.state = .byte ∨ (encTick s).enc.state = .byteStart
      | .xor => (encTick s).enc.state = .xor ∨ (encTick s).enc.state = .endBit
      | .endBit => (encTick s).enc.state = .cutout1 ∨ (encTick s).enc.state = .idle
      | .cutout1 => (encTick s).enc.state = .cutout2
      | .cutout2 => (encTick s).enc.state = .idle)

/-- 40_encoder R133: the `IDLE` tick. -/
def Obligations.IdleTickStartsPacket : Prop :=
  ∀ s : State, s.enc.state = .idle →
    let prog := s.runMode = .progOkay ∨ s.runMode = .progShort ∨ s.runMode = .progOff ∨ s.runMode = .progError
    encTick s = { s with
      mbxCnt := if s.mbxCnt = 0 then 0 else s.mbxCnt - 1
      enc := { s.enc with
        buf := if s.mbxCnt = 0 then ⟨0, 2, .void, ⟨0xFF, 0x00, 0, 0, 0, 0⟩⟩ else s.mbx
        xor := 0
        idx := 0
        cnt := BitVec.ofNat 8 ((if prog then s.params.preambleProg else s.params.preambleRun) - 1)
        state := .preamble }
      track := s.track ++ [.one] }

/-- 40_encoder R134 to R140: the other arms of the tick, each with all it writes. -/
def Obligations.EncoderArms : Prop :=
  ∀ s : State,
    (s.enc.state = .preamble → encTick s = { s with
      enc := { s.enc with cnt := s.enc.cnt - 1, state := if s.enc.cnt = 1 then .byteStart else .preamble }
      track := s.track ++ [.one] }) ∧
    (s.enc.state = .byteStart → s.enc.idx.toNat < s.enc.buf.size.toNat → encTick s = { s with
      enc := { s.enc with
        sr := payloadAt s.enc.buf.payload s.enc.idx
        xor := s.enc.xor ^^^ payloadAt s.enc.buf.payload s.enc.idx
        idx := s.enc.idx + 1
        cnt := 8
        state := .byte }
      track := s.track ++ [.zero] }) ∧
    (s.enc.state = .byteStart → s.enc.buf.size.toNat ≤ s.enc.idx.toNat → encTick s = { s with
      enc := { s.enc with sr := s.enc.xor, cnt := 8, state := .xor }
      track := s.track ++ [.zero] }) ∧
    (s.enc.state = .byte → encTick s = { s with
      enc := { s.enc with
        sr := s.enc.sr <<< 1, cnt := s.enc.cnt - 1, state := if s.enc.cnt = 1 then .byteStart else .byte }
      track := s.track ++ [if s.enc.sr.getLsbD 7 then .one else .zero] }) ∧
    (s.enc.state = .xor → encTick s = { s with
      enc := { s.enc with
        sr := s.enc.sr <<< 1, cnt := s.enc.cnt - 1, state := if s.enc.cnt = 1 then .endBit else .xor }
      track := s.track ++ [if s.enc.sr.getLsbD 7 then .one else .zero] }) ∧
    (s.enc.state = .endBit → encTick s = { s with
      enc := { s.enc with cut := s.cutoutEn, state := if s.cutoutEn then .cutout1 else .idle }
      track := s.track ++ [.one] }) ∧
    (s.enc.state = .cutout1 → encTick s = { s with
      enc := { s.enc with state := .cutout2 }
      track := s.track ++ [.gap] }) ∧
    (s.enc.state = .cutout2 → encTick s = { s with
      enc := { s.enc with state := .idle }
      track := s.track ++ [.gap] }) ∧
    (symbolPhases s.params .gap ++ symbolPhases s.params .gap).map LinePhase.us =
      [s.params.cutoutGapUs / 2, s.params.cutoutGapUs / 2]

/-- 40_encoder R141, 30_encoding R89, 20_memory R61: from an `IDLE` tick, `P + 9*size + 10` consecutive ticks put the
packet on the track, symbol for symbol, with checksum `cksum(m)`, change nothing else, and end at the cutout or at
`IDLE`; two more ticks pass the cutout. -/
def Obligations.PacketOnTheTrack : Prop :=
  ∀ s : State, s.enc.state = .idle →
    let m := if s.mbxCnt = 0 then idleMsg else s.mbx
    let n := if isProg s.runMode then s.params.preambleProg else s.params.preambleRun
    let sent := List.replicate n Symbol.one ++ (msgBytes m).flatMap framedByte ++ framedByte (cksum m) ++ [.one]
    let after (st : EncState) (l : List Symbol) : State := { s with
      mbxCnt := if s.mbxCnt = 0 then 0 else s.mbxCnt - 1
      enc := { buf := m, cnt := 0, idx := m.size, sr := 0, xor := cksum m, cut := s.cutoutEn, state := st }
      track := s.track ++ l }
    sizeOk m = true → 2 ≤ n → n ≤ 256 →
      sent.length = n + 9 * m.size.toNat + 10 ∧
      (s.cutoutEn = false → encTicks (n + 9 * m.size.toNat + 10) s = after .idle sent) ∧
      (s.cutoutEn = true → encTicks (n + 9 * m.size.toNat + 10) s = after .cutout1 sent ∧
        encTicks (n + 9 * m.size.toNat + 12) s = after .idle (sent ++ [.gap, .gap]))

/-- 40_encoder R133 to R138, R141: every step keeps the encoder's registers in agreement with the packet it sends: the
index counts the loaded bytes, `ENC_XOR` is their checksum, no bit counter underflows. -/
def Obligations.StepKeepsEncoderRegisters : Prop :=
  ∀ s t : State, EncoderOk s.enc → sizeOk s.mbx = true → s.params.valid = true → step s = .next t →
    EncoderOk t.enc ∧ sizeOk t.mbx = true ∧ t.params.valid = true

/-- 40_encoder R143, R144: what the encoder emits, over any number of ticks, depends on the mailbox's size, payload and
count, the preamble length of the run-mode and `CUTOUT_EN` alone: not on the queues, the message type, `MBX_SRC` or the
programmer. -/
def Obligations.EncoderIgnoresPolicy : Prop :=
  ∀ (s s' : State) (n : Nat), SameWire s.enc s'.enc →
    s.mbx.size = s'.mbx.size → s.mbx.payload = s'.mbx.payload → s.mbxCnt = s'.mbxCnt → s.cutoutEn = s'.cutoutEn →
    preambleLen s.params s.runMode = preambleLen s'.params s'.runMode → s.track = s'.track →
    (encTicks n s).track = (encTicks n s').track ∧ (encTicks n s).mbxCnt = (encTicks n s').mbxCnt ∧
    SameWire (encTicks n s).enc (encTicks n s').enc

/-- 40_encoder R142: the "ready" signal becomes true only in an `IDLE` tick that copies the mailbox and decrements the
count from 1, and false only by a dispatch. -/
def Obligations.ReadySignalRule : Prop :=
  ∀ s : State, (encReady s = true ↔ s.mbxCnt = 0) ∧
    ∀ t : State, step s = .next t →
      (encReady s = false → encReady t = true →
        (nextEvent s).1 = .encTick ∧ s.enc.state = .idle ∧ s.mbxCnt = 1 ∧ t.enc.buf = s.mbx) ∧
      (encReady s = true → encReady t = false →
        (nextEvent s).1 = .coreStep ∧ t.mbxSrc ≠ .noSrc ∧ t.last = t.mbx ∧ t.lastValid = true)

/-! ## Faults and the mailbox -/

/-- 20_memory R65, 60_exceptions R321: the mailbox race is unreachable from every state, and no step refuses. -/
def Obligations.StepNeverRacesNorRefuses : Prop :=
  ∀ s : State, (∀ m, step s ≠ .fault (.mailboxRace m)) ∧ ∀ r, step s ≠ .refused r

/-- 60_exceptions R321, R320: with the message sizes and the programmer's layers as every step keeps them, and a
`FAST_CLOCK_BUILD` that meets its constraint, the only fault is an illegal run-mode written from outside. The fault of an
unlisted `SEQ_PC` is the model's own (log 6) and is excluded too. -/
def Obligations.FaultsOnlyFromEnvironment : Prop :=
  ∀ (s : State) (f : Fault), LayersOk s.prog → SizesOk s → ClockBuilderOk s → step s = .fault f →
    ∃ code, 9 ≤ code.toNat ∧ f = .badRunMode code ∧ (nextEvent s).1 = .statusWrite code

/-- 20_memory R63, R64, 10_state R25: while transmissions are owed, no step rewrites the mailbox; the count only falls by
one, in an `IDLE` tick. -/
def Obligations.MailboxWrittenOnlyWhenFree : Prop :=
  ∀ s t : State, step s = .next t → s.mbxCnt ≠ 0 →
    t.mbx = s.mbx ∧ t.mbxSrc = s.mbxSrc ∧ t.last = s.last ∧ t.lastValid = s.lastValid ∧
    (t.mbxCnt = s.mbxCnt ∨
      (t.mbxCnt.toNat + 1 = s.mbxCnt.toNat ∧ (nextEvent s).1 = .encTick ∧ s.enc.state = .idle))

/-- 10_state R40, R22, 43_programmer R270, R272: a `CORE` step leaves the encoder, the track and the inputs but `ACK_IN`
alone, takes the command word, and writes `RUN_MODE` only to enter programming or to restore the saved mode; a short is
never overwritten. -/
def Obligations.CoreLeavesEncoder : Prop :=
  ∀ s t : State, coreStep s = .next t →
    t.enc = s.enc ∧ t.track = s.track ∧ t.params = s.params ∧ t.cutoutEn = s.cutoutEn ∧ t.clockMs = s.clockMs ∧
    t.agenda = s.agenda ∧ t.eventDraws = s.eventDraws ∧ t.cmd = none ∧
    (t.runMode = s.runMode ∨
      (isProg s.runMode = false ∧ s.mbxCnt = 0 ∧ t.runMode = .progOkay ∧ t.prog.priorMode = s.runMode) ∨
      (s.runMode = .progOkay ∧ t.runMode = s.prog.priorMode ∧ t.prog.seqState = .idle)) ∧
    (s.runMode = .runShort ∨ s.runMode = .progShort → t.runMode = s.runMode)

/-! ## Commands: completion and frame -/

/-- 42_organizer R203, 60_exceptions R320, R329: every command, in every state, answers a next state, and changes nothing
beyond what its rule names: the table only by a locomotive command or a forget, the queues only by an enqueueing command
(in a PROG mode `SMQ` alone, in a RUN mode never `SMQ`), the repeat buffer only by a locomotive command, the programmer
only by a task start or a terminate. -/
def Obligations.CommandFrame : Prop :=
  ∀ (i : Instr) (s : State), ∃ t : State, exec i s = .next t ∧
    t = { s with loco := t.loco, smq := t.smq, hpq := t.hpq, lpq := t.lpq, rpt := t.rpt, prog := t.prog, resp := t.resp } ∧
    (taskOf i = none → i ≠ .progTerminate → t.prog = s.prog) ∧
    (groupCommand i = none → i.op ≠ .locoSpeed → t.rpt = s.rpt ∧ (i.op ≠ .locoForget → t.loco = s.loco)) ∧
    (groupCommand i = none → enqueueCommand s.params i = none → i.op ≠ .locoSpeed → i.op ≠ .bcastStop →
      t.smq = s.smq ∧ t.hpq = s.hpq ∧ t.lpq = s.lpq) ∧
    (i.op ≠ .locoSpeed → i.op ≠ .bcastStop → t.hpq = s.hpq) ∧
    (isProg s.runMode = true → t.hpq = s.hpq ∧ t.lpq = s.lpq ∧ t.rpt = s.rpt) ∧
    (isProg s.runMode = false → t.smq = s.smq)

/-! ## Locomotive commands -/

/-- 42_organizer R210: `loco_get`, with its eviction, and `fmt_of`; the model's choices are that the format database is a
list of pairs whose first pair of an address counts (log 2), and that the lowest index is taken in a table that holds an
address twice (log 13). -/
def Obligations.LocoGetRule : Prop :=
  (∀ (p : Params) (a : LocoAddr) (l : List LocoEntry), l ≠ [] →
    ((∃ i, HoldsAt l a i) ∨ (Absent l a ∧ ∃ i, RoomAt l i)) ∧
    (∀ i, HoldsAt l a i → locoGet p a l = (i, false, l)) ∧
    (∀ i, Absent l a → RoomAt l i → locoGet p a l =
      (i, true, l.set i ⟨a, 0, formatOf p a, true, 0, 0⟩))) ∧
  ∀ (p : Params) (a : LocoAddr),
    let fmt := (p.locoFormatDb.lookup a).getD p.defaultFormat
    (fmt = .steps14 → formatOf p a = .f14) ∧ (fmt = .steps27 → formatOf p a = .f28) ∧
    (fmt = .steps28 → formatOf p a = .f28) ∧ (fmt = .steps128 → formatOf p a = .f128)

/-- 42_organizer R204: `LOCO_SPEED`, for every address, speed and state; `GotEntry` is what `loco_get` answers. -/
def Obligations.LocoSpeedRule : Prop :=
  ∀ (s : State) (a : LocoAddr) (v : Byte) (i : Nat) (e : LocoEntry) (isNew : Bool), GotEntry s a i e isNew →
    ∃ (t : State) (hp full : Bool), exec (.locoSpeed a v) s = .next t ∧
      t = { s with loco := t.loco, smq := t.smq, hpq := t.hpq, lpq := t.lpq, rpt := t.rpt, resp := t.resp } ∧
      t.loco = s.loco.set i { e with speed := v, active := true, refresh := 0 } ∧
      (hp = true ↔ isProg s.runMode = false ∧ isNew = false ∧
        (v.getLsbD 7 ≠ e.speed.getLsbD 7 ∨ v.toNat % 128 < e.speed.toNat % 128)) ∧
      Enqueued (speedMsg s.params a v e.format (e.funcs.getLsbD 0)) hp full s t ∧
      t.resp = flagsResponse full hp isNew

/-- 42_organizer R205: the five function-group commands replace exactly the group's bits, `lo` to `hi`: F0-F4, F5-F8,
F9-F12, F13-F20, F21-F28. -/
def Obligations.GroupCommandRule : Prop :=
  ∀ (s : State) (c : Instr) (a : LocoAddr) (g : Nat) (d : Byte) (i : Nat) (e : LocoEntry) (isNew : Bool)
    (lo hi : Nat) (funcs : BitVec 29), groupCommand c = some (a, g, d) → GotEntry s a i e isNew →
    (g, lo, hi) ∈ [(1, 0, 4), (2, 5, 8), (3, 9, 12), (4, 13, 20), (5, 21, 28)] →
    (∀ k, k < 29 → funcs.getLsbD k = if lo ≤ k ∧ k ≤ hi then d.getLsbD (k - lo) else e.funcs.getLsbD k) →
    ∃ (t : State) (full : Bool), exec c s = .next t ∧
      t = { s with loco := t.loco, smq := t.smq, lpq := t.lpq, rpt := t.rpt, resp := t.resp } ∧
      t.loco = s.loco.set i { e with funcs := funcs, active := true, refresh := 0 } ∧
      Enqueued (groupMsg s.params a g funcs) false full s t ∧
      t.resp = flagsResponse full false isNew

/-- 42_organizer R206: `LOCO_FORGET`. -/
def Obligations.LocoForgetRule : Prop :=
  ∀ (s : State) (a : LocoAddr),
    (∀ i, HoldsAt s.loco a i → exec (.locoForget a) s = .next { s with
      loco := s.loco.set i ⟨0, 0, .f14, false, 0, 0⟩
      resp := 0x40#8 ++ BitVec.ofNat 16 i }) ∧
    (Absent s.loco a → exec (.locoForget a) s = .next { s with resp := 0x410000 })

/-- 42_organizer R207: `BCAST_STOP`. -/
def Obligations.BroadcastStopRule : Prop :=
  ∀ (s : State) (e : Bool),
    (isProg s.runMode = true → exec (.bcastStop e) s = .next { s with
      smq := (s.smq.push (stopMsg s.params e)).getD s.smq
      resp := flagsResponse s.smq.full false false }) ∧
    (isProg s.runMode = false → exec (.bcastStop e) s = .next { s with
      hpq := (s.hpq.push (stopMsg s.params e)).getD s.hpq
      resp := flagsResponse s.hpq.full true false })

/-- 42_organizer R203, R208, R209: the accessory, program-on-main and fast-clock commands only enqueue their message; the
fast-clock packet is a free value (log 5). -/
def Obligations.EnqueueCommandsRule : Prop :=
  ∀ (s : State) (i : Instr) (m : Message), enqueueCommand s.params i = some m →
    (isProg s.runMode = true → exec i s = .next { s with
      smq := (s.smq.push m).getD s.smq
      resp := flagsResponse s.smq.full false false }) ∧
    (isProg s.runMode = false → exec i s = .next { s with
      lpq := (lpInsertRing s.lpq m).getD s.lpq
      resp := flagsResponse (lpInsertRing s.lpq m).isNone false false })

/-! ## Queues, keys and repeats -/

/-- 10_state R30: a ring of `n` slots is a first-in first-out queue of at most `n - 1` messages. -/
def Obligations.RingIsBoundedFifo : Prop :=
  ∀ (n : Nat) (q : Ring) (m : Message), q.Ok n →
    q.live.length = q.count ∧ q.count ≤ n - 1 ∧ (q.empty = true ↔ q.live = []) ∧ (q.full = true ↔ q.count = n - 1) ∧
    (q.full = true → q.push m = none) ∧
    (q.full = false → ∃ q', q.push m = some q' ∧ q'.Ok n ∧ q'.live = q.live ++ [m]) ∧
    q.head = q.live.head? ∧ (q.empty = false → q.pop.Ok n ∧ q.pop.live = q.live.tail) ∧
    (∀ k, k < q.count → (q.replace ((q.rd + k) % n) m).Ok n ∧ (q.replace ((q.rd + k) % n) m).live = q.live.set k m)

/-- 42_organizer R213: `lp_insert` replaces in place a waiting entry of the same key, even in a full queue, and otherwise
pushes. -/
def Obligations.LowPriorityInsertRule : Prop :=
  ∀ (n : Nat) (q : Ring) (m : Message), q.Ok n →
    ((keyOf m).isRaw = true ∨ (∀ x ∈ q.live, keyOf x ≠ keyOf m) → lpInsertRing q m = q.push m) ∧
    ((keyOf m).isRaw = false → (∃ x ∈ q.live, keyOf x = keyOf m) →
      ∃ (q' : Ring) (k : Nat) (x : Message), lpInsertRing q m = some q' ∧ q'.Ok n ∧ q'.rd = q.rd ∧ q'.wr = q.wr ∧
        q.live[k]? = some x ∧ keyOf x = keyOf m ∧ q'.live = q.live.set k m)

/-- 42_organizer R214: `rpt_put`, `rpt_clear` and `rpt_select`. -/
def Obligations.RepeatBufferRule : Prop :=
  ∀ (l : List RptEntry) (m : Message) (key : Key),
    (∀ j x, l[j]? = some x → x.cnt ≠ 0 → keyOf x.msg = keyOf m →
      (∀ k y, k < j → l[k]? = some y → y.cnt = 0 ∨ keyOf y.msg ≠ keyOf m) → rptPut m l = l.set j ⟨m, m.rep⟩) ∧
    ((∀ y ∈ l, y.cnt = 0 ∨ keyOf y.msg ≠ keyOf m) →
      (m.rep = 0 → rptPut m l = l) ∧
      (m.rep ≠ 0 →
        (∀ j x, l[j]? = some x → x.cnt = 0 → (∀ k y, k < j → l[k]? = some y → y.cnt ≠ 0) →
          rptPut m l = l.set j ⟨m, m.rep⟩) ∧
        (∀ j x, l[j]? = some x → (∀ y ∈ l, y.cnt ≠ 0) → (∀ y ∈ l, x.cnt.toNat ≤ y.cnt.toNat) →
          (∀ k y, k < j → l[k]? = some y → x.cnt.toNat < y.cnt.toNat) → rptPut m l = l.set j ⟨m, m.rep⟩))) ∧
    (rptClear key l).length = l.length ∧
    (∀ (j : Nat) (x : RptEntry), l[j]? = some x → (rptClear key l)[j]? =
      some (if x.cnt ≠ 0 ∧ keyOf x.msg = key then { x with cnt := 0 } else x)) ∧
    ((∀ y ∈ l, y.cnt = 0) → rptSelect l = none) ∧
    (∀ j x, l[j]? = some x → x.cnt ≠ 0 → (∀ y ∈ l, y.cnt.toNat ≤ x.cnt.toNat) →
      (∀ k y, k < j → l[k]? = some y → y.cnt.toNat < x.cnt.toNat) → rptSelect l = some j)

/-- 42_organizer R212, 30_encoding R91: the keys of the locomotive, accessory, program-on-main, stop and idle messages:
address class, address and kind for speed and function messages, RAW for the others of these. -/
def Obligations.KeysOfBuiltMessages : Prop :=
  ∀ (p : Params) (a : LocoAddr) (v : Byte) (f0 : Bool) (funcs : BitVec 29), p.valid = true → LocoAddr.legal a = true →
    let cls := if a.toNat < p.longAddrMin then AddrClass.short else AddrClass.long
    keyOf (speedMsg p a v .f128 f0) = .cmd cls a .speed128 ∧
    keyOf (speedMsg p a v .f28 f0) = .cmd cls a .speed28 ∧ keyOf (speedMsg p a v .f14 f0) = .cmd cls a .speed28 ∧
    keyOf (groupMsg p a 1 funcs) = .cmd cls a .fg1 ∧ keyOf (groupMsg p a 2 funcs) = .cmd cls a .fg2 ∧
    keyOf (groupMsg p a 3 funcs) = .cmd cls a .fg3 ∧ keyOf (groupMsg p a 4 funcs) = .cmd cls a .fg4 ∧
    keyOf (groupMsg p a 5 funcs) = .cmd cls a .fg5 ∧
    (∀ (c : CvAddr) (d : Byte) (b : BitPos) (u : Bool) (x : BitVec 12) (y : BitVec 11) (z : BitVec 5) (w : BitVec 9),
      ∀ m ∈ [pomWriteMsg p a c d, pomVerifyMsg p a c d, pomBitMsg p a c b u, accMsg p x u, xaccMsg p y z,
        pomAccMsg p w c d, stopMsg p u, idleMsg], keyOf m = .raw (msgBytes m))

/-- 42_organizer R213, R214: every step keeps at most one waiting low-priority entry, and at most one pending repeat, of a
key. -/
def Obligations.StepKeepsKeysOnce : Prop :=
  ∀ s t : State, Shaped s → step s = .next t →
    (KeysOnce s.lpq.live → KeysOnce t.lpq.live) ∧ (RptKeysOnce s.rpt → RptKeysOnce t.rpt)

/-! ## Selection and refresh -/

/-- 42_organizer R201, R202, R225: branches 1 to 3 of the selection, each with its dispatch count, in every run-mode of
its kind. -/
def Obligations.SelectionQueues : Prop :=
  ∀ s : State, s.mbxCnt = 0 →
    (isProg s.runMode = true →
      (∀ m, s.smq.head = some m → sizeOk m = true →
        organizerDispatch s = .next (Dispatched m (m.rep + 1) .smq { s with smq := s.smq.pop })) ∧
      (s.smq.head = none → organizerDispatch s = .next (Dispatched idleMsg 1 .idle s))) ∧
    (isProg s.runMode = false → ∀ m, sizeOk m = true → Differs s m →
      (s.hpq.head = some m → organizerDispatch s = .next (Dispatched m 1 .hpq { s with hpq := s.hpq.pop })) ∧
      (Withheld s s.hpq → s.lpq.head = some m → organizerDispatch s =
        .next (Dispatched m 1 .lpq { s with lpq := s.lpq.pop, rpt := rptPut m s.rpt })))

/-- 42_organizer R201, R202: branches 4 to 6 of the selection. -/
def Obligations.SelectionRest : Prop :=
  ∀ s : State, s.mbxCnt = 0 → isProg s.runMode = false → Withheld s s.hpq → Withheld s s.lpq →
    (∀ j x, s.rpt[j]? = some x → x.cnt ≠ 0 → (∀ y ∈ s.rpt, y.cnt.toNat ≤ x.cnt.toNat) →
      (∀ k y, k < j → s.rpt[k]? = some y → y.cnt.toNat < x.cnt.toNat) →
      (Differs s x.msg → sizeOk x.msg = true → organizerDispatch s =
        .next (Dispatched x.msg 1 .rpt { s with rpt := s.rpt.set j { x with cnt := x.cnt - 1 } })) ∧
      (¬ Differs s x.msg → organizerDispatch s = dispatchRefresh s)) ∧
    ((∀ y ∈ s.rpt, y.cnt = 0) → organizerDispatch s = dispatchRefresh s) ∧
    (∀ c src s1, refreshNext s = (c, src, s1) →
      (Differs s c → dispatchRefresh s = .next (Dispatched c 1 src s1)) ∧
      (¬ Differs s c → dispatchRefresh s = .next (Dispatched idleMsg 1 .idle s1)))

/-- 42_organizer R220 (the cursor) and R222: one iteration of the sweep moves the cursor, a wrap advances the level, the
top level ages every non-empty entry, bounded by `STALE_MAX`. -/
def Obligations.SweepAdvanceRule : Prop :=
  ∀ (p : Params) (w : Sweep), w.cursor < w.loco.length →
    (w.cursor + 1 < w.loco.length → advanceCursor p w = { w with cursor := w.cursor + 1 }) ∧
    (w.cursor + 1 = w.loco.length → w.level + 1 < (if p.extFuncs then 10 else 6) →
      advanceCursor p w = { w with cursor := 0, level := w.level + 1 }) ∧
    (w.cursor + 1 = w.loco.length → (if p.extFuncs then 10 else 6) ≤ w.level + 1 →
      advanceCursor p w = { w with
        cursor := 0
        level := 0
        loco := w.loco.map fun e => if e.addr = 0 then e else
          { e with refresh := BitVec.ofNat 8 (min (e.refresh.toNat + 1) p.staleMax) } })

/-- 42_organizer R220, R221, R223: the candidate is the first one due within `N * L` iterations, and the dummy message
where none is due; the cursor, the level and the ages are those of the iterations done, and nothing else changes. -/
def Obligations.RefreshNextRule : Prop :=
  ∀ (s : State) (c : Message) (src : MbxSrc) (s1 : State), refreshNext s = (c, src, s1) →
    let bound := s.loco.length * (if s.params.extFuncs then 10 else 6)
    let at_ (k : Nat) : State := { s with
      rfCursor := (sweepAfter k s).cursor, rfLevel := (sweepAfter k s).level, loco := (sweepAfter k s).loco }
    (∃ k, k < bound ∧ (∀ j m, j < k → ¬ Due s.params (sweepAfter j s) m) ∧ Due s.params (sweepAfter k s) c ∧
      src = .refresh ∧ s1 = at_ (k + 1)) ∨
    ((∀ j m, j < bound → ¬ Due s.params (sweepAfter j s) m) ∧
      c = ⟨0, 2, .acc, ⟨s.params.dummyAcc0, s.params.dummyAcc1, 0, 0, 0, 0⟩⟩ ∧ src = .dummy ∧ s1 = at_ bound)

/-- 42_organizer R220 (its corner case), R223: the search finds a candidate exactly where some entry is active. -/
def Obligations.RefreshFindsActive : Prop :=
  ∀ s : State, Shaped s →
    ((∃ e ∈ s.loco, e.addr ≠ 0 ∧ e.active = true) → (refreshNext s).2.1 = .refresh) ∧
    ((∀ e ∈ s.loco, e.addr = 0 ∨ e.active = false) →
      (refreshNext s).2.1 = .dummy ∧ (refreshNext s).1 = dummyMsg s.params)

/-! ## Message builders -/

/-- 41_builders R160, R162, R163, R167 to R175: the repeat, the type and the size of every built message; every size is 2
to 5 and the bytes beyond it are 0. The fast-clock message's size is a free value (log 5) and not stated. -/
def Obligations.BuiltMessageHeaders : Prop :=
  ∀ (p : Params) (a : LocoAddr) (v d : Byte) (f0 b : Bool) (funcs : BitVec 29) (x : BitVec 12) (y : BitVec 11)
    (z : BitVec 5) (w : BitVec 9) (c : CvAddr) (k : BitPos) (r : RegIdx),
    let n := if a.toNat < p.longAddrMin then 1 else 2
    BuiltAs (speedMsg p a v .f128 f0) p.repeatSpeed .loco (n + 2) ∧
    BuiltAs (speedMsg p a v .f28 f0) p.repeatSpeed .loco (n + 1) ∧
    BuiltAs (speedMsg p a v .f14 f0) p.repeatSpeed .loco (n + 1) ∧
    (∀ g, g = 1 ∨ g = 2 ∨ g = 3 → BuiltAs (groupMsg p a g funcs) p.repeatFunc .loco (n + 1)) ∧
    (∀ g, g = 4 ∨ g = 5 → BuiltAs (groupMsg p a g funcs) p.repeatFunc .loco (n + 2)) ∧
    BuiltAs (accMsg p x b) p.repeatAcc .acc 2 ∧ BuiltAs (xaccMsg p y z) p.repeatAcc .acc 3 ∧
    BuiltAs (stopMsg p b) p.repeatSpeed .stop 2 ∧
    BuiltAs (pomWriteMsg p a c d) p.repeatProg .loco (n + 3) ∧
    BuiltAs (pomVerifyMsg p a c d) p.repeatProg .loco (n + 3) ∧
    BuiltAs (pomBitMsg p a c k b) p.repeatProg .loco (n + 3) ∧
    BuiltAs (pomAccMsg p w c d) p.repeatProg .acc 5 ∧
    BuiltAs idleMsg 0 .void 2 ∧ BuiltAs (resetMsg d) d .sm 2 ∧ BuiltAs (dummyMsg p) 0 .acc 2 ∧
    (∀ m ∈ [smVerifyByte c d, smWriteByte c d, smVerifyBit c k b, smWriteBit c k b], BuiltAs m 0 .smAck 3) ∧
    (∀ m ∈ [smRegVerify r d, smRegWrite r d], BuiltAs m 0 .smAck 2) ∧
    (∀ (mn : BitVec 6) (h : BitVec 5) (wd : BitVec 3) (q : BitVec 6),
      (fastClockMsg p mn h wd q).rep = p.repeatAcc ∧ (fastClockMsg p mn h wd q).type = .void ∧
      ∀ j, (fastClockMsg p mn h wd q).size.toNat ≤ j → (payloadBytes (fastClockMsg p mn h wd q).payload).getD j 0 = 0)

/-- 41_builders R161, R164, R165, R167, R168: the bytes of the speed and function messages, as numbers. -/
def Obligations.LocoMessageBytes : Prop :=
  ∀ (p : Params) (a : LocoAddr) (v : Byte) (f0 : Bool) (funcs : BitVec 29), p.longAddrMin ≤ 128 → a.toNat ≤ 10239 →
    let d := v.toNat / 128
    let m := v.toNat % 128
    let rail (steps : Nat) := if m ≤ 1 then m else min ((m - 2) * steps / 125 + 2) (steps + 1)
    let w := if rail 28 = 0 then 0 else if rail 28 = 1 then 2 else rail 28 + 2
    let f := funcs.toNat
    byteValues (speedMsg p a v .f128 f0) = addrValues p a ++ [0x3F, v.toNat] ∧
    byteValues (speedMsg p a v .f28 f0) = addrValues p a ++ [0x40 + 32 * d + 16 * (w % 2) + w / 2] ∧
    byteValues (speedMsg p a v .f14 f0) = addrValues p a ++ [0x40 + 32 * d + 16 * f0.toNat + rail 14] ∧
    byteValues (groupMsg p a 1 funcs) = addrValues p a ++ [0x80 + 16 * (f % 2) + f / 2 % 16] ∧
    byteValues (groupMsg p a 2 funcs) = addrValues p a ++ [0xB0 + f / 2 ^ 5 % 16] ∧
    byteValues (groupMsg p a 3 funcs) = addrValues p a ++ [0xA0 + f / 2 ^ 9 % 16] ∧
    byteValues (groupMsg p a 4 funcs) = addrValues p a ++ [0xDE, f / 2 ^ 13 % 256] ∧
    byteValues (groupMsg p a 5 funcs) = addrValues p a ++ [0xDF, f / 2 ^ 21 % 256]

/-- 41_builders R163, R169 to R173, R175: the bytes of the reset, accessory, stop, program-on-main and service-mode
messages, as numbers. -/
def Obligations.OtherMessageBytes : Prop :=
  ∀ (p : Params) (a : LocoAddr) (x : BitVec 12) (y : BitVec 11) (z : BitVec 5) (dec : BitVec 9) (c : CvAddr) (d : Byte)
    (k : BitPos) (r : RegIdx) (b : Bool), p.longAddrMin ≤ 128 → a.toNat ≤ 10239 →
    let hi := c.toNat / 256
    let lo := c.toNat % 256
    byteValues (accMsg p x b) =
      [0x80 + x.toNat / 8 % 64, 0x80 + 16 * (7 - x.toNat / 512) + 8 * b.toNat + x.toNat % 8] ∧
    byteValues (xaccMsg p y z) =
      [0x80 + y.toNat / 4 % 64, 16 * (7 - y.toNat / 256) + 2 * (y.toNat % 4) + 1, z.toNat] ∧
    byteValues (resetMsg d) = [0x00, 0x00] ∧ byteValues (stopMsg p b) = [0x00, 0x40 + b.toNat] ∧
    byteValues (pomAccMsg p dec c d) =
      [0x80 + dec.toNat % 64, 0x80 + 16 * (7 - dec.toNat / 64), 0xEC + hi, lo, d.toNat] ∧
    byteValues (pomWriteMsg p a c d) = addrValues p a ++ [0xEC + hi, lo, d.toNat] ∧
    byteValues (pomVerifyMsg p a c d) = addrValues p a ++ [0xE4 + hi, lo, d.toNat] ∧
    byteValues (pomBitMsg p a c k b) = addrValues p a ++ [0xE8 + hi, lo, 0xF0 + 8 * b.toNat + k.toNat] ∧
    byteValues (smVerifyByte c d) = [0x74 + hi, lo, d.toNat] ∧
    byteValues (smWriteByte c d) = [0x7C + hi, lo, d.toNat] ∧
    byteValues (smVerifyBit c k b) = [0x78 + hi, lo, 0xE0 + 8 * b.toNat + k.toNat] ∧
    byteValues (smWriteBit c k b) = [0x78 + hi, lo, 0xF0 + 8 * b.toNat + k.toNat] ∧
    byteValues (smRegVerify r d) = [0x70 + r.toNat, d.toNat] ∧
    byteValues (smRegWrite r d) = [0x78 + r.toNat, d.toNat]

/-- 41_builders R165, R166: `from_rail` answers the smallest magnitude of the rail step, so the round trip returns the
same rail code and never a larger magnitude. Stated for every number of steps from 1 to 125, of which 14 and 28 are used. -/
def Obligations.SpeedConversionInverse : Prop :=
  ∀ (steps m : Nat), 1 ≤ steps → steps ≤ 125 →
    toRail m steps ≤ steps + 1 ∧
    toRail (fromRail (toRail m steps) steps) steps = toRail m steps ∧
    ∀ m', toRail m' steps = toRail m steps → fromRail (toRail m steps) steps ≤ m'

/-! ## Queries -/

/-- 42_organizer R216: `QUERY_READY`. -/
def Obligations.QueryReadyRule : Prop :=
  ∀ s : State, exec .queryReady s = .next { s with
    resp := if isProg s.runMode
      then (if s.smq.full then 0x400000 else 0x400001)
      else (if s.lpq.full ∨ s.hpq.full then 0x400000 else 0x400001) }

/-- 42_organizer R217: `FIND_ACTIVE`, `NEXT_ACTIVE` and `PREV_ACTIVE`, with the wrap-around; they change nothing but the
response. -/
def Obligations.ActiveQueriesRule : Prop :=
  ∀ (s : State) (a : LocoAddr),
    (∀ i e, s.loco[i]? = some e → e.addr = a → a ≠ 0 → e.active = true →
      (∀ j y, j < i → s.loco[j]? = some y → y.addr ≠ a ∨ y.active = false) →
      exec (.findActive a) s = .next { s with resp := 0x40#8 ++ BitVec.ofNat 16 i }) ∧
    (¬ ActiveAddr s.loco a.toNat → exec (.findActive a) s = .next { s with resp := 0x410000 }) ∧
    (∀ x, ActiveAddr s.loco x →
      (a.toNat < x → (∀ y, ActiveAddr s.loco y → a.toNat < y → x ≤ y) →
        exec (.nextActive a) s = .next { s with resp := 0x40#8 ++ BitVec.ofNat 16 x }) ∧
      ((∀ y, ActiveAddr s.loco y → y ≤ a.toNat ∧ x ≤ y) →
        exec (.nextActive a) s = .next { s with resp := 0x40#8 ++ BitVec.ofNat 16 x }) ∧
      (x < a.toNat → (∀ y, ActiveAddr s.loco y → y < a.toNat → y ≤ x) →
        exec (.prevActive a) s = .next { s with resp := 0x40#8 ++ BitVec.ofNat 16 x }) ∧
      ((∀ y, ActiveAddr s.loco y → a.toNat ≤ y ∧ y ≤ x) →
        exec (.prevActive a) s = .next { s with resp := 0x40#8 ++ BitVec.ofNat 16 x })) ∧
    ((∀ x, ¬ ActiveAddr s.loco x) →
      exec (.nextActive a) s = .next { s with resp := 0x410000 } ∧
      exec (.prevActive a) s = .next { s with resp := 0x410000 })

/-! ## Programmer: commands -/

/-- 43_programmer R261, R285 (the initial step), R290, 30_encoding R81: while a task runs, a start answers busy and changes
nothing else; otherwise it copies the command's operands, read here off its word's fields, and resets the three layers.
The CV or register operand of a task that uses none is not stated (log 10). -/
def Obligations.StartRule : Prop :=
  ∀ (s : State) (i : Instr) (op : TaskOp), taskOf i = some op →
    (s.prog.prBusy = true → exec i s = .next { s with resp := 0x810000 }) ∧
    (s.prog.prBusy = false → ∃ t : State, exec i s = .next t ∧
      t = { s with prog := t.prog, resp := 0x800000 } ∧
      t.prog = { s.prog with
        seqOp := some op
        seqCv := t.prog.seqCv
        seqReg := t.prog.seqReg
        seqData := i.fields.data
        seqBit := i.fields.aux.setWidth 3
        seqBitval := i.fields.aux.getLsbD 3
        seqAddr := i.fields.addr.setWidth 14
        seqTmp := 0
        seqPc := if op = .longaddrWrite ∧ i.fields.addr.toNat < s.params.longAddrMin then 4 else 0
        prBusy := true
        prResult := 0xFF
        prValue := 0
        seqEntered := false
        byteBusy := false
        byteDone := false
        innerState := .idle
        seqState := if isProg s.runMode then .step else .enter } ∧
      seqOpCode t.prog.seqOp = i.op.code ∧
      (i.op.usesCv = true → t.prog.seqCv.toNat + 1 = i.fields.cv.toNat) ∧
      (i.op = .progRegRead ∨ i.op = .progRegWrite → t.prog.seqReg.toNat + 1 = i.fields.addr.toNat))

/-- 43_programmer R287: `PROG_TERMINATE`. -/
def Obligations.TerminateRule : Prop :=
  ∀ s : State,
    (s.prog.prBusy = false → exec .progTerminate s = .next { s with
      prog := { s.prog with prResult := 0x0B }
      resp := 0x40000B }) ∧
    (s.prog.prBusy = true → s.prog.seqState = .enter → exec .progTerminate s = .next { s with
      prog := { s.prog with
        innerState := .idle, byteBusy := false, byteDone := false, prResult := 0x0A, prBusy := false, seqState := .idle }
      resp := 0x40000A }) ∧
    (s.prog.prBusy = true → s.prog.seqState ≠ .enter → exec .progTerminate s = .next { s with
      prog := { s.prog with innerState := .idle, byteBusy := false, byteDone := false, prResult := 0x0A, seqState := .exit }
      resp := 0x40000A })

/-- 43_programmer R288: `PROG_STATUS` and `PROG_VALUE`; while no task runs, no step but a start or a terminate changes the
result or the value. -/
def Obligations.StatusAndValueRule : Prop :=
  (∀ s t : State, LayersOk s.prog → s.prog.prBusy = false → step s = .next t →
    (∀ w i, s.cmd = some w → decode s.params.extFuncs w = .ok i → taskOf i = none ∧ i ≠ .progTerminate) →
    t.prog.prResult = s.prog.prResult ∧ t.prog.prValue = s.prog.prValue) ∧
  ∀ s : State,
    exec .progStatus s = .next { s with
      resp := (if s.prog.prBusy then 0x91#8 else 0x90#8) ++ s.prog.prResult.setWidth 16 } ∧
    exec .progValue s = .next { s with resp := 0x40#8 ++ s.prog.prValue }

/-! ## Programmer: supervision, entry, exit -/

/-- 43_programmer R263, R264, R271, 60_exceptions R324: run-mode supervision; a task it ends goes on to its exit step in the
same call. -/
def Obligations.SupervisionRule : Prop :=
  ∀ s : State, s.prog.seqState = .enter ∨ s.prog.seqState = .step →
    (s.runMode = .runShort ∨ s.runMode = .progShort →
      progStep s = .next (exitStep { s with prog := finished 0x03 s.prog })) ∧
    (s.prog.seqState = .enter → s.runMode = .progOkay ∨ s.runMode = .progOff ∨ s.runMode = .progError →
      progStep s = .next (exitStep { s with prog := finished 0x05 s.prog })) ∧
    (s.prog.seqState = .step → s.runMode ≠ .progOkay → s.runMode ≠ .runShort → s.runMode ≠ .progShort →
      progStep s = .next (exitStep { s with prog := finished 0x05 s.prog })) ∧
    (s.prog.seqState = .enter → isProg s.runMode = false → s.runMode ≠ .runShort →
      progStep s = .next (enterStep s)) ∧
    (s.prog.seqState = .step → s.runMode = .progOkay → progStep s = layerStep s)

/-- 43_programmer R264, R265, R270, R272: entering programming mode waits for the mailbox, saves the run-mode and queues
the resets; leaving waits for `SMQ` to drain and restores the mode unless it changed meanwhile. -/
def Obligations.EntryAndExit : Prop :=
  ∀ s : State,
    let drained := s.smq.empty = true ∧ ¬ (s.mbxSrc = .smq ∧ s.mbxCnt ≠ 0)
    (s.prog.seqState = .enter → isProg s.runMode = false → s.runMode ≠ .runShort →
      (s.mbxCnt ≠ 0 → progStep s = .next s) ∧
      (s.mbxCnt = 0 → ∀ q, s.smq.push (resetMsg (BitVec.ofNat 8 (s.params.progEntryResets - 1))) = some q →
        progStep s = .next { s with
          smq := q
          runMode := .progOkay
          prog := { s.prog with priorMode := s.runMode, seqEntered := true, seqState := .step } })) ∧
    (s.prog.seqState = .exit →
      (isProg s.runMode = true → ¬ drained → progStep s = .next s) ∧
      (isProg s.runMode = true → drained → progStep s = .next { s with
        runMode := if s.prog.seqEntered = true ∧ s.runMode = .progOkay then s.prog.priorMode else s.runMode
        prog := { s.prog with seqEntered := false, prBusy := false, seqState := .idle } }) ∧
      (isProg s.runMode = false → progStep s = .next { s with
        smq := { s.smq with rd := s.smq.wr }
        prog := { s.prog with seqEntered := false, prBusy := false, seqState := .idle } })) ∧
    (s.prog.seqState = .idle → progStep s = .next s)

/-! ## Programmer: layers -/

/-- 43_programmer R267, R268: the start and the four arms of the inner loop; a push that fails leaves the state for a
retry. -/
def Obligations.InnerLoopRule : Prop :=
  (∀ (s : State) (pkt : Message) (wr : Bool), innerStart pkt wr s = { s with
    prog := { s.prog with innerPkt := pkt, innerWr := wr, innerAck := false, innerState := .pre } }) ∧
  ∀ s : State, Stepping s →
    let row := if s.prog.byteMode = .direct then s.params.cycDirect else s.params.cycReg
    let pushes (m : Message) (st : InnerState) : Prop :=
      (∀ q, s.smq.push m = some q → progStep s = .next { s with smq := q, prog := { s.prog with innerState := st } }) ∧
      (s.smq.full = true → progStep s = .next s)
    (s.prog.innerState = .pre → pushes (resetMsg (BitVec.ofNat 8 (row.pre - 1))) .cmd) ∧
    (s.prog.innerState = .cmd → pushes { s.prog.innerPkt with rep := BitVec.ofNat 8 (row.cmd - 1) } .wait) ∧
    (s.prog.innerState = .wait →
      let seen := (s.prog.innerAck || (ackPoll s).1)
      let drained := s.smq.empty = true ∧ ¬ (s.mbxSrc = .smq ∧ s.mbxCnt ≠ 0)
      progStep s = .next { (ackPoll s).2 with prog := { s.prog with
        innerAck := seen, innerState := if seen = true ∨ drained then .post else .wait } }) ∧
    (s.prog.innerState = .post →
      pushes (resetMsg (BitVec.ofNat 8 ((if s.prog.innerWr then row.postWr else row.postVf) - 1))) .done)

/-- 43_programmer R266: the acknowledgment is a supermajority of `ACK_SAMPLES` fresh samples; samples the environment has
not settled are free draws, after the settled ones; that order and the bookkeeping are the model's choice (log 3). -/
def Obligations.AckMajority : Prop :=
  ∀ s : State,
    (ackSamplesOf s.params.ackSamples s).length = s.params.ackSamples ∧
    ((ackPoll s).1 = true ↔ s.params.ackThreshold ≤ (ackSamplesOf s.params.ackSamples s).count true) ∧
    (ackPoll s).2 = { s with
      ackIn := s.ackIn.drop s.params.ackSamples
      ackDraws := s.ackDraws + (s.params.ackSamples - s.ackIn.length) } ∧
    (s.params.valid = true →
      s.params.ackSamples / 2 < s.params.ackThreshold ∧ s.params.ackThreshold ≤ s.params.ackSamples)

/-- 43_programmer R274, R273, R279: the capability phase. -/
def Obligations.CapabilityProbeRule : Prop :=
  ∀ s : State, ByteTurn s → s.prog.bytePh = .cap → s.prog.byteOp = .readDirect ∨ s.prog.byteOp = .capProbe →
    let fresh := (s.clockMs - s.prog.bitcapT).toNat < s.params.cacheExpiryMs
    let decided (yes : Bool) (g : Programmer) : Programmer :=
      if g.byteOp = .capProbe then byteEnded (if yes then .ok else .noAck) g
      else { g with byteI := 0, byteAcc := 0, bytePh := if yes then .bits else .scan }
    (s.prog.innerState = .idle → s.prog.bitcap = .yes → fresh → progStep s = .next { s with prog := decided true s.prog }) ∧
    (s.prog.innerState = .idle → s.prog.bitcap = .no → fresh → progStep s = .next { s with prog := decided false s.prog }) ∧
    (s.prog.innerState = .idle → s.prog.bitcap = .unknown ∨ ¬ fresh → progStep s = .next { s with
      prog := innerStarted (smVerifyBit 7 0 (s.prog.byteI.getLsbD 0)) false s.prog }) ∧
    (s.prog.innerState = .done → s.prog.byteI = 0 → progStep s = .next { s with
      prog := { s.prog with innerState := .idle, byteA0 := s.prog.innerAck, byteI := 1 } }) ∧
    (s.prog.innerState = .done → s.prog.byteI ≠ 0 →
      let yes := s.prog.byteA0 != s.prog.innerAck
      progStep s = .next { s with prog := decided yes { s.prog with
        innerState := .idle, bitcap := if yes then .yes else .no, bitcapT := s.clockMs } })

/-- 43_programmer R269, R275: the single-packet byte operations. -/
def Obligations.SinglePacketOperations : Prop :=
  ∀ s : State, ByteTurn s →
    s.prog.byteOp = .writeByte ∨ s.prog.byteOp = .writeBit ∨ s.prog.byteOp = .verifyBit →
    (s.prog.innerState = .idle →
      (s.prog.byteOp = .writeByte → s.prog.byteMode = .direct → progStep s = .next { s with
        prog := innerStarted (smWriteByte s.prog.byteTgt s.prog.byteData) true s.prog }) ∧
      (s.prog.byteOp = .writeByte → s.prog.byteMode = .reg → progStep s = .next { s with
        prog := innerStarted (smRegWrite (s.prog.byteTgt.setWidth 3) s.prog.byteData) true s.prog }) ∧
      (s.prog.byteOp = .writeBit → progStep s = .next { s with
        prog := innerStarted (smWriteBit s.prog.byteTgt s.prog.byteBit s.prog.byteBitval) true s.prog }) ∧
      (s.prog.byteOp = .verifyBit → progStep s = .next { s with
        prog := innerStarted (smVerifyBit s.prog.byteTgt s.prog.byteBit s.prog.byteBitval) false s.prog })) ∧
    (s.prog.innerState = .done → progStep s = .next { s with
      prog := byteEnded (if s.prog.innerAck then .ok else .noAck) { s.prog with innerState := .idle } })

/-- 43_programmer R278: eight bit verifications, with value 1, rebuild the byte whatever it is, and the whole-byte verify
decides between the value and the bit error. -/
def Obligations.BitProbeReadsByte : Prop :=
  ∀ (s : State) (v : Byte) (ok : Bool), s.prog.byteOp = .readDirect → s.prog.bytePh = .bits →
    s.prog.innerState = .idle → s.prog.byteI = 0 → s.prog.byteAcc = 0 →
    let bits := [0, 1, 2, 3, 4, 5, 6, 7].map v.getLsbD
    let before (k : Nat) : State := (bits.take k).foldl probeRound s
    (∀ k, k < 8 → (byteStep (before k)).prog.innerPkt = smVerifyBit s.prog.byteTgt (BitVec.ofNat 3 k) true ∧
      (byteStep (before k)).prog.innerState = .pre ∧ (byteStep (before k)).prog.innerWr = false) ∧
    (byteStep (before 8)).prog.innerPkt = smVerifyByte s.prog.byteTgt v ∧
    probeRound (before 8) ok = { s with prog := byteEnded (if ok then .ok else .bitErr) { s.prog with
      innerPkt := smVerifyByte s.prog.byteTgt v, innerWr := false, innerAck := ok, byteI := 8, byteAcc := v,
      byteVal := if ok then v else s.prog.byteVal } }

/-- 43_programmer R277, R269: the scan tries the candidates in increasing order, and the first acknowledged one is the
value; 256 candidates without acknowledgment are "no decoder". -/
def Obligations.ScanReadsFirstAck : Prop :=
  ∀ s : State, s.prog.byteOp = .scanRead ∨ s.prog.byteOp = .readDirect → s.prog.bytePh = .scan →
    s.prog.innerState = .idle → s.prog.byteI = 0 →
    let verify (d : Byte) : Message :=
      if s.prog.byteMode = .direct then smVerifyByte s.prog.byteTgt d else smRegVerify (s.prog.byteTgt.setWidth 3) d
    let unanswered (k : Nat) : State := (List.replicate k false).foldl probeRound s
    (∀ k, k < 256 →
      (byteStep (unanswered k)).prog.innerPkt = verify (BitVec.ofNat 8 k) ∧
      (byteStep (unanswered k)).prog.innerState = .pre ∧
      probeRound (unanswered k) true = { s with prog := byteEnded .ok { s.prog with
        innerPkt := verify (BitVec.ofNat 8 k), innerWr := false, innerAck := true, byteI := BitVec.ofNat 9 k,
        byteVal := BitVec.ofNat 8 k } }) ∧
    unanswered 256 = { s with prog := byteEnded .noDec { s.prog with
      innerPkt := verify 255, innerWr := false, innerAck := false, byteI := 255 } }

/-- 43_programmer R280 to R283, R276, R286, R289: the register, paged, direct and bit tasks and the capability query, each
step with what it issues and what each result does. -/
def Obligations.ShortTasks : Prop :=
  ∀ s : State, SeqTurn s →
    let g := s.prog
    let page : Byte := BitVec.ofNat 8 (g.seqCv.toNat / 4 + 1)
    let reg : CvAddr := BitVec.ofNat 10 (g.seqCv.toNat % 4)
    let hit := g.pageValid = true ∧ g.page = page ∧ (s.clockMs - g.pageT).toNat < s.params.cacheExpiryMs
    (g.seqPc = 0 → g.seqOp = some .regRead →
      Issues s (byteStarted .scanRead .reg (g.seqReg.setWidth 10) 0 0 false g) ∧ ReadEnds s) ∧
    (g.seqPc = 0 → g.seqOp = some .regWrite →
      Issues s (byteStarted .writeByte .reg (g.seqReg.setWidth 10) g.seqData 0 false { g with pageValid := false }) ∧
      WriteEnds s) ∧
    (g.seqPc = 0 → g.seqOp = some .pagedRead ∨ g.seqOp = some .pagedWrite →
      (hit → Issues s { g with seqPc := 1 }) ∧
      (¬ hit → Issues s (byteStarted .writeByte .reg 5 page 0 false g)) ∧
      Results s .ok (fun r => { r with pageValid := true, page := page, pageT := s.clockMs, seqPc := 1 }) ∧
      FailsWith s (fun r => finished 0x07 { r with pageValid := false })) ∧
    (g.seqPc = 1 → g.seqOp = some .pagedRead →
      Issues s (byteStarted .scanRead .reg reg 0 0 false g) ∧ ReadEnds s) ∧
    (g.seqPc = 1 → g.seqOp = some .pagedWrite →
      Issues s (byteStarted .writeByte .reg reg g.seqData 0 false g) ∧ WriteEnds s) ∧
    (g.seqPc = 0 → g.seqOp = some .directRead →
      Issues s (byteStarted .readDirect .direct g.seqCv 0 0 false g) ∧ ReadEnds s) ∧
    (g.seqPc = 0 → g.seqOp = some .directWrite →
      Issues s (byteStarted .writeByte .direct g.seqCv g.seqData 0 false g) ∧ WriteEnds s) ∧
    (g.seqPc = 0 → g.seqOp = some .bitWrite →
      Issues s (byteStarted .writeBit .direct g.seqCv 0 g.seqBit g.seqBitval g) ∧
      Results s .ok (finished 0x00) ∧ FailsWith s (finished 0x02)) ∧
    (g.seqPc = 0 → g.seqOp = some .bitVerify →
      Issues s (byteStarted .verifyBit .direct g.seqCv 0 g.seqBit g.seqBitval g) ∧
      Results s .ok (fun r => finished 0x00 { r with prValue := 1 }) ∧
      FailsWith s (fun r => finished 0x02 { r with prValue := 0 })) ∧
    (g.seqPc = 0 → g.seqOp = some .queryBitcap →
      Issues s (byteStarted .capProbe .direct 0 0 0 false g) ∧
      Results s .ok (finished 0x08) ∧ FailsWith s (finished 0x09))

/-- 43_programmer R284, R285, R289: the long-address read and write, step by step, and where the write starts. -/
def Obligations.LongAddressTasks : Prop :=
  (∀ (p : Params) (a : LocoAddr), initialPc p .longaddrWrite a = if p.longAddrMin ≤ a.toNat then 0 else 4) ∧
  ∀ s : State, SeqTurn s →
    let g := s.prog
    let v := g.byteVal
    let read (cva : CvAddr) := Issues s (byteStarted .readDirect .direct cva 0 0 false g)
    let write (cva : CvAddr) (d : Byte) := Issues s (byteStarted .writeByte .direct cva d 0 false g)
    let flag (b : Bool) := Issues s (byteStarted .writeBit .direct 28 0 5 b g)
    (g.seqOp = some .longaddrRead →
      (g.seqPc = 0 → read 28 ∧ FailsMapped s ∧
        Results s .ok (fun r => { r with seqTmp := v, seqPc := if v.getLsbD 5 then 1 else 3 })) ∧
      (g.seqPc = 1 → read 16 ∧ FailsMapped s ∧
        Results s .ok (fun r => { r with seqAddr := BitVec.ofNat 14 (v.toNat % 64 * 256), seqPc := 2 })) ∧
      (g.seqPc = 2 → read 17 ∧ FailsMapped s ∧
        Results s .ok (fun r => finished 0x00 { r with prValue := g.seqAddr.setWidth 16 ||| v.setWidth 16 })) ∧
      (g.seqPc = 3 → read 0 ∧ FailsMapped s ∧
        Results s .ok (fun r => finished 0x00 { r with prValue := BitVec.ofNat 16 (v.toNat % 128) }))) ∧
    (g.seqOp = some .longaddrWrite →
      (g.seqPc = 0 → write 16 (0xC0 ||| BitVec.ofNat 8 (g.seqAddr.toNat / 256)) ∧ FailsWith s (finished 0x02) ∧
        Results s .ok (fun r => { r with seqPc := 1 })) ∧
      (g.seqPc = 1 → write 17 (BitVec.ofNat 8 (g.seqAddr.toNat % 256)) ∧ FailsWith s (finished 0x02) ∧
        Results s .ok (fun r => { r with seqPc := 2 })) ∧
      (g.seqPc = 2 → flag true ∧ FailsWith s (finished 0x02) ∧ Results s .ok (finished 0x00)) ∧
      (g.seqPc = 4 → write 0 (BitVec.ofNat 8 (g.seqAddr.toNat % 128)) ∧ FailsWith s (finished 0x02) ∧
        Results s .ok (fun r => { r with seqPc := 5 })) ∧
      (g.seqPc = 5 → flag false ∧ FailsWith s (finished 0x02) ∧ Results s .ok (finished 0x00)))

/-! ## Invariants that every step keeps -/

/-- 43_programmer R264, R273, R290, 60_exceptions R325: every step keeps the nesting of the three layers, `SEQ_PC` within
what the task lists, and `PR_RESULT` within its codes. -/
def Obligations.StepKeepsLayers : Prop :=
  ∀ s t : State, LayersOk s.prog → ResultOk s.prog → step s = .next t → LayersOk t.prog ∧ ResultOk t.prog

/-- 43_programmer R290: `PR_BUSY` is set only by a `CORE` step that takes a task's word, and is cleared only with a result
other than `NONE`. -/
def Obligations.TaskCompletion : Prop :=
  ∀ s t : State, LayersOk s.prog → ResultOk s.prog → step s = .next t →
    (s.prog.prBusy = false → t.prog.prBusy = true → (nextEvent s).1 = .coreStep ∧
      ∃ w i op, s.cmd = some w ∧ decode s.params.extFuncs w = .ok i ∧ taskOf i = some op) ∧
    (s.prog.prBusy = true → t.prog.prBusy = false →
      (nextEvent s).1 = .coreStep ∧ t.prog.prResult ≠ 0xFF ∧ t.prog.seqState = .idle)

/-- 10_state R30 to R34, 42_organizer R210, R211, R222: every step keeps the capacities, pointers and cursors in range, an
address at most once in the table, `active` exactly in non-empty slots and `refresh` within `STALE_MAX`. -/
def Obligations.StepKeepsStorage : Prop :=
  ∀ s t : State, Shaped s → step s = .next t → Shaped t ∧ (TableOk s → TableOk t)

/-- 10_state R24, 41_builders R160: every step keeps the waiting messages at legal sizes, with a `FAST_CLOCK_BUILD` that
meets its constraint (41_builders R174). -/
def Obligations.StepKeepsSizes : Prop :=
  ∀ s t : State, SizesOk s → ClockBuilderOk s → step s = .next t → SizesOk t

end Statements
end

