-- ==== Sys2Proof/Laws/Decode.lean ====
section
/-! SUPPORT. Laws of the encoding: fields and words are the same thing, opcodes are told apart, and the operand
assembly undoes the encoder field by field. -/

namespace Sys2Proof

/-- The fields of an assembled word are those it was assembled from. -/
@[simp] theorem fieldsOf_wordOf (f : CmdFields) : fieldsOf (wordOf f) = f := by
  obtain ⟨a, b, c, d, e, g⟩ := f
  simp only [fieldsOf, wordOf, CmdFields.mk.injEq]
  refine ⟨?_, ?_, ?_, ?_, ?_, ?_⟩ <;> apply BitVec.eq_of_getLsbD_eq <;> intro i hi <;>
    simp only [BitVec.getLsbD_extractLsb', BitVec.getLsbD_append, hi, decide_true, Bool.true_and] <;> grind

/-- A word is the one its fields assemble to. -/
@[simp] theorem wordOf_fieldsOf (w : CmdWord) : wordOf (fieldsOf w) = w := by
  apply BitVec.eq_of_getLsbD_eq
  intro i hi
  simp only [fieldsOf, wordOf, BitVec.getLsbD_extractLsb', BitVec.getLsbD_append]
  grind

/-- The fields of an encoded command. -/
@[simp] theorem fieldsOf_encode (i : Instr) : fieldsOf (encode i) = i.fields := by
  simp [encode]

/-- An opcode's number spells that opcode. -/
@[simp] theorem Op.ofCode_code (o : Op) : Op.ofCode o.code = some o := by
  cases o <;> rfl

/-- A byte that spells an opcode is its number. -/
theorem Op.code_of_ofCode {c : Byte} {o : Op} (h : Op.ofCode c = some o) : o.code = c := by
  simpa using List.find?_some h

/-- Opcode numbers are distinct. -/
theorem Op.code_injective {o p : Op} (h : o.code = p.code) : o = p := by
  have ho := Op.ofCode_code o
  rw [h, Op.ofCode_code] at ho
  exact (Option.some.inj ho).symm

/-- A legal locomotive address comes back from its field. -/
theorem locoAddrOf_setWidth {a : LocoAddr} (h : LocoAddr.legal a = true) :
    locoAddrOf (a.setWidth 16) = some a := by
  simp only [LocoAddr.legal, Bool.and_eq_true, decide_eq_true_eq] at h
  have hn : (a.setWidth 16).toNat = a.toNat := by simp; omega
  simp [locoAddrOf, hn, h]

/-- A locomotive address or 0 comes back from its field. -/
theorem locoAddrOrZeroOf_setWidth {a : LocoAddr} (h : a.toNat ≤ 10239) :
    locoAddrOrZeroOf (a.setWidth 16) = some a := by
  have hn : (a.setWidth 16).toNat = a.toNat := by simp; omega
  simp [locoAddrOrZeroOf, hn, h]

/-- A cv_address comes back from its 1-based field. -/
@[simp] theorem cvAddrOf_cvField (c : CvAddr) : cvAddrOf (cvField c) = some c := by
  have hn : (c.setWidth 16 + 1).toNat = c.toNat + 1 := by simp; omega
  have hb : 1 ≤ c.toNat + 1 ∧ c.toNat + 1 ≤ 1024 := by omega
  simp only [cvAddrOf, cvField, hn, hb, and_self, if_true, Option.some.injEq]
  rw [show (c.setWidth 16 + 1 - 1 : BitVec 16) = c.setWidth 16 by bv_omega]
  simp

/-- A register index comes back from its 1-based field. -/
@[simp] theorem regIdxOf_regField (r : RegIdx) : regIdxOf (regField r) = some r := by
  have hn : (r.setWidth 16 + 1).toNat = r.toNat + 1 := by simp; omega
  have hb : 1 ≤ r.toNat + 1 ∧ r.toNat + 1 ≤ 8 := by omega
  simp only [regIdxOf, regField, hn, hb, and_self, if_true, Option.some.injEq]
  rw [show (r.setWidth 16 + 1 - 1 : BitVec 16) = r.setWidth 16 by bv_omega]
  simp

/-- A narrow value comes back from the wider field that holds it. -/
theorem lowBits_setWidth {n m : Nat} (h : n ≤ m) (v : BitVec n) : lowBits n (v.setWidth m) = some v := by
  have hlt : v.toNat < 2 ^ m := lt_of_lt_of_le v.isLt (Nat.pow_le_pow_right (by decide) h)
  have hn : (v.setWidth m).toNat = v.toNat := by simp [Nat.mod_eq_of_lt hlt]
  simp only [lowBits, hn, v.isLt, if_true, Option.some.injEq]
  exact BitVec.eq_of_toNat_eq (by simp [Nat.mod_eq_of_lt hlt])

/-- A one-bit operand comes back from `AUX`. -/
@[simp] theorem auxFlag_flagAux (b : Bool) : auxFlag (flagAux b) = some b := by
  cases b <;> rfl

/-- A bit position and value come back from `AUX`. -/
@[simp] theorem auxBit_bitAux (b : BitPos) (v : Bool) : auxBit (bitAux b v) = some (b, v) := by
  revert b v
  decide

end Sys2Proof
end

