-- ==== Sys2Proof/Laws/State.lean ====
section
/-! SUPPORT. One lemma per field per named update of State, true by definition, so that no proof unfolds a record
update. -/

namespace Sys2Proof.Machine

/-! ## `setProg` -/

@[simp] theorem setProg_params (f : Programmer → Programmer) (s : State) : (setProg f s).params = s.params := rfl
@[simp] theorem setProg_runMode (f : Programmer → Programmer) (s : State) : (setProg f s).runMode = s.runMode := rfl
@[simp] theorem setProg_mbx (f : Programmer → Programmer) (s : State) : (setProg f s).mbx = s.mbx := rfl
@[simp] theorem setProg_mbxCnt (f : Programmer → Programmer) (s : State) : (setProg f s).mbxCnt = s.mbxCnt := rfl
@[simp] theorem setProg_mbxSrc (f : Programmer → Programmer) (s : State) : (setProg f s).mbxSrc = s.mbxSrc := rfl
@[simp] theorem setProg_enc (f : Programmer → Programmer) (s : State) : (setProg f s).enc = s.enc := rfl
@[simp] theorem setProg_smq (f : Programmer → Programmer) (s : State) : (setProg f s).smq = s.smq := rfl
@[simp] theorem setProg_hpq (f : Programmer → Programmer) (s : State) : (setProg f s).hpq = s.hpq := rfl
@[simp] theorem setProg_lpq (f : Programmer → Programmer) (s : State) : (setProg f s).lpq = s.lpq := rfl
@[simp] theorem setProg_rpt (f : Programmer → Programmer) (s : State) : (setProg f s).rpt = s.rpt := rfl
@[simp] theorem setProg_loco (f : Programmer → Programmer) (s : State) : (setProg f s).loco = s.loco := rfl
@[simp] theorem setProg_rfCursor (f : Programmer → Programmer) (s : State) : (setProg f s).rfCursor = s.rfCursor := rfl
@[simp] theorem setProg_rfLevel (f : Programmer → Programmer) (s : State) : (setProg f s).rfLevel = s.rfLevel := rfl
@[simp] theorem setProg_last (f : Programmer → Programmer) (s : State) : (setProg f s).last = s.last := rfl
@[simp] theorem setProg_lastValid (f : Programmer → Programmer) (s : State) : (setProg f s).lastValid = s.lastValid := rfl
@[simp] theorem setProg_prog (f : Programmer → Programmer) (s : State) : (setProg f s).prog = f s.prog := rfl
@[simp] theorem setProg_cmd (f : Programmer → Programmer) (s : State) : (setProg f s).cmd = s.cmd := rfl
@[simp] theorem setProg_resp (f : Programmer → Programmer) (s : State) : (setProg f s).resp = s.resp := rfl
@[simp] theorem setProg_track (f : Programmer → Programmer) (s : State) : (setProg f s).track = s.track := rfl
@[simp] theorem setProg_cutoutEn (f : Programmer → Programmer) (s : State) : (setProg f s).cutoutEn = s.cutoutEn := rfl
@[simp] theorem setProg_clockMs (f : Programmer → Programmer) (s : State) : (setProg f s).clockMs = s.clockMs := rfl
@[simp] theorem setProg_ackIn (f : Programmer → Programmer) (s : State) : (setProg f s).ackIn = s.ackIn := rfl
@[simp] theorem setProg_agenda (f : Programmer → Programmer) (s : State) : (setProg f s).agenda = s.agenda := rfl
@[simp] theorem setProg_ackDraws (f : Programmer → Programmer) (s : State) : (setProg f s).ackDraws = s.ackDraws := rfl
@[simp] theorem setProg_eventDraws (f : Programmer → Programmer) (s : State) : (setProg f s).eventDraws = s.eventDraws := rfl

/-! ## `setEnc` -/

@[simp] theorem setEnc_params (f : Encoder → Encoder) (s : State) : (setEnc f s).params = s.params := rfl
@[simp] theorem setEnc_runMode (f : Encoder → Encoder) (s : State) : (setEnc f s).runMode = s.runMode := rfl
@[simp] theorem setEnc_mbx (f : Encoder → Encoder) (s : State) : (setEnc f s).mbx = s.mbx := rfl
@[simp] theorem setEnc_mbxCnt (f : Encoder → Encoder) (s : State) : (setEnc f s).mbxCnt = s.mbxCnt := rfl
@[simp] theorem setEnc_mbxSrc (f : Encoder → Encoder) (s : State) : (setEnc f s).mbxSrc = s.mbxSrc := rfl
@[simp] theorem setEnc_enc (f : Encoder → Encoder) (s : State) : (setEnc f s).enc = f s.enc := rfl
@[simp] theorem setEnc_smq (f : Encoder → Encoder) (s : State) : (setEnc f s).smq = s.smq := rfl
@[simp] theorem setEnc_hpq (f : Encoder → Encoder) (s : State) : (setEnc f s).hpq = s.hpq := rfl
@[simp] theorem setEnc_lpq (f : Encoder → Encoder) (s : State) : (setEnc f s).lpq = s.lpq := rfl
@[simp] theorem setEnc_rpt (f : Encoder → Encoder) (s : State) : (setEnc f s).rpt = s.rpt := rfl
@[simp] theorem setEnc_loco (f : Encoder → Encoder) (s : State) : (setEnc f s).loco = s.loco := rfl
@[simp] theorem setEnc_rfCursor (f : Encoder → Encoder) (s : State) : (setEnc f s).rfCursor = s.rfCursor := rfl
@[simp] theorem setEnc_rfLevel (f : Encoder → Encoder) (s : State) : (setEnc f s).rfLevel = s.rfLevel := rfl
@[simp] theorem setEnc_last (f : Encoder → Encoder) (s : State) : (setEnc f s).last = s.last := rfl
@[simp] theorem setEnc_lastValid (f : Encoder → Encoder) (s : State) : (setEnc f s).lastValid = s.lastValid := rfl
@[simp] theorem setEnc_prog (f : Encoder → Encoder) (s : State) : (setEnc f s).prog = s.prog := rfl
@[simp] theorem setEnc_cmd (f : Encoder → Encoder) (s : State) : (setEnc f s).cmd = s.cmd := rfl
@[simp] theorem setEnc_resp (f : Encoder → Encoder) (s : State) : (setEnc f s).resp = s.resp := rfl
@[simp] theorem setEnc_track (f : Encoder → Encoder) (s : State) : (setEnc f s).track = s.track := rfl
@[simp] theorem setEnc_cutoutEn (f : Encoder → Encoder) (s : State) : (setEnc f s).cutoutEn = s.cutoutEn := rfl
@[simp] theorem setEnc_clockMs (f : Encoder → Encoder) (s : State) : (setEnc f s).clockMs = s.clockMs := rfl
@[simp] theorem setEnc_ackIn (f : Encoder → Encoder) (s : State) : (setEnc f s).ackIn = s.ackIn := rfl
@[simp] theorem setEnc_agenda (f : Encoder → Encoder) (s : State) : (setEnc f s).agenda = s.agenda := rfl
@[simp] theorem setEnc_ackDraws (f : Encoder → Encoder) (s : State) : (setEnc f s).ackDraws = s.ackDraws := rfl
@[simp] theorem setEnc_eventDraws (f : Encoder → Encoder) (s : State) : (setEnc f s).eventDraws = s.eventDraws := rfl

/-! ## `emit` -/

@[simp] theorem emit_params (x : Symbol) (s : State) : (emit x s).params = s.params := rfl
@[simp] theorem emit_runMode (x : Symbol) (s : State) : (emit x s).runMode = s.runMode := rfl
@[simp] theorem emit_mbx (x : Symbol) (s : State) : (emit x s).mbx = s.mbx := rfl
@[simp] theorem emit_mbxCnt (x : Symbol) (s : State) : (emit x s).mbxCnt = s.mbxCnt := rfl
@[simp] theorem emit_mbxSrc (x : Symbol) (s : State) : (emit x s).mbxSrc = s.mbxSrc := rfl
@[simp] theorem emit_enc (x : Symbol) (s : State) : (emit x s).enc = s.enc := rfl
@[simp] theorem emit_smq (x : Symbol) (s : State) : (emit x s).smq = s.smq := rfl
@[simp] theorem emit_hpq (x : Symbol) (s : State) : (emit x s).hpq = s.hpq := rfl
@[simp] theorem emit_lpq (x : Symbol) (s : State) : (emit x s).lpq = s.lpq := rfl
@[simp] theorem emit_rpt (x : Symbol) (s : State) : (emit x s).rpt = s.rpt := rfl
@[simp] theorem emit_loco (x : Symbol) (s : State) : (emit x s).loco = s.loco := rfl
@[simp] theorem emit_rfCursor (x : Symbol) (s : State) : (emit x s).rfCursor = s.rfCursor := rfl
@[simp] theorem emit_rfLevel (x : Symbol) (s : State) : (emit x s).rfLevel = s.rfLevel := rfl
@[simp] theorem emit_last (x : Symbol) (s : State) : (emit x s).last = s.last := rfl
@[simp] theorem emit_lastValid (x : Symbol) (s : State) : (emit x s).lastValid = s.lastValid := rfl
@[simp] theorem emit_prog (x : Symbol) (s : State) : (emit x s).prog = s.prog := rfl
@[simp] theorem emit_cmd (x : Symbol) (s : State) : (emit x s).cmd = s.cmd := rfl
@[simp] theorem emit_resp (x : Symbol) (s : State) : (emit x s).resp = s.resp := rfl
@[simp] theorem emit_track (x : Symbol) (s : State) : (emit x s).track = s.track ++ [x] := rfl
@[simp] theorem emit_cutoutEn (x : Symbol) (s : State) : (emit x s).cutoutEn = s.cutoutEn := rfl
@[simp] theorem emit_clockMs (x : Symbol) (s : State) : (emit x s).clockMs = s.clockMs := rfl
@[simp] theorem emit_ackIn (x : Symbol) (s : State) : (emit x s).ackIn = s.ackIn := rfl
@[simp] theorem emit_agenda (x : Symbol) (s : State) : (emit x s).agenda = s.agenda := rfl
@[simp] theorem emit_ackDraws (x : Symbol) (s : State) : (emit x s).ackDraws = s.ackDraws := rfl
@[simp] theorem emit_eventDraws (x : Symbol) (s : State) : (emit x s).eventDraws = s.eventDraws := rfl

/-! ## `respond` -/

@[simp] theorem respond_params (st : Byte) (rd : BitVec 16) (s : State) : (respond st rd s).params = s.params := rfl
@[simp] theorem respond_runMode (st : Byte) (rd : BitVec 16) (s : State) : (respond st rd s).runMode = s.runMode := rfl
@[simp] theorem respond_mbx (st : Byte) (rd : BitVec 16) (s : State) : (respond st rd s).mbx = s.mbx := rfl
@[simp] theorem respond_mbxCnt (st : Byte) (rd : BitVec 16) (s : State) : (respond st rd s).mbxCnt = s.mbxCnt := rfl
@[simp] theorem respond_mbxSrc (st : Byte) (rd : BitVec 16) (s : State) : (respond st rd s).mbxSrc = s.mbxSrc := rfl
@[simp] theorem respond_enc (st : Byte) (rd : BitVec 16) (s : State) : (respond st rd s).enc = s.enc := rfl
@[simp] theorem respond_smq (st : Byte) (rd : BitVec 16) (s : State) : (respond st rd s).smq = s.smq := rfl
@[simp] theorem respond_hpq (st : Byte) (rd : BitVec 16) (s : State) : (respond st rd s).hpq = s.hpq := rfl
@[simp] theorem respond_lpq (st : Byte) (rd : BitVec 16) (s : State) : (respond st rd s).lpq = s.lpq := rfl
@[simp] theorem respond_rpt (st : Byte) (rd : BitVec 16) (s : State) : (respond st rd s).rpt = s.rpt := rfl
@[simp] theorem respond_loco (st : Byte) (rd : BitVec 16) (s : State) : (respond st rd s).loco = s.loco := rfl
@[simp] theorem respond_rfCursor (st : Byte) (rd : BitVec 16) (s : State) : (respond st rd s).rfCursor = s.rfCursor := rfl
@[simp] theorem respond_rfLevel (st : Byte) (rd : BitVec 16) (s : State) : (respond st rd s).rfLevel = s.rfLevel := rfl
@[simp] theorem respond_last (st : Byte) (rd : BitVec 16) (s : State) : (respond st rd s).last = s.last := rfl
@[simp] theorem respond_lastValid (st : Byte) (rd : BitVec 16) (s : State) : (respond st rd s).lastValid = s.lastValid := rfl
@[simp] theorem respond_prog (st : Byte) (rd : BitVec 16) (s : State) : (respond st rd s).prog = s.prog := rfl
@[simp] theorem respond_cmd (st : Byte) (rd : BitVec 16) (s : State) : (respond st rd s).cmd = s.cmd := rfl
@[simp] theorem respond_resp (st : Byte) (rd : BitVec 16) (s : State) : (respond st rd s).resp = response st rd := rfl
@[simp] theorem respond_track (st : Byte) (rd : BitVec 16) (s : State) : (respond st rd s).track = s.track := rfl
@[simp] theorem respond_cutoutEn (st : Byte) (rd : BitVec 16) (s : State) : (respond st rd s).cutoutEn = s.cutoutEn := rfl
@[simp] theorem respond_clockMs (st : Byte) (rd : BitVec 16) (s : State) : (respond st rd s).clockMs = s.clockMs := rfl
@[simp] theorem respond_ackIn (st : Byte) (rd : BitVec 16) (s : State) : (respond st rd s).ackIn = s.ackIn := rfl
@[simp] theorem respond_agenda (st : Byte) (rd : BitVec 16) (s : State) : (respond st rd s).agenda = s.agenda := rfl
@[simp] theorem respond_ackDraws (st : Byte) (rd : BitVec 16) (s : State) : (respond st rd s).ackDraws = s.ackDraws := rfl
@[simp] theorem respond_eventDraws (st : Byte) (rd : BitVec 16) (s : State) : (respond st rd s).eventDraws = s.eventDraws := rfl

/-! ## `respondFlags` -/

@[simp] theorem respondFlags_params (f : OrgFlags) (s : State) : (respondFlags f s).params = s.params := rfl
@[simp] theorem respondFlags_runMode (f : OrgFlags) (s : State) : (respondFlags f s).runMode = s.runMode := rfl
@[simp] theorem respondFlags_mbx (f : OrgFlags) (s : State) : (respondFlags f s).mbx = s.mbx := rfl
@[simp] theorem respondFlags_mbxCnt (f : OrgFlags) (s : State) : (respondFlags f s).mbxCnt = s.mbxCnt := rfl
@[simp] theorem respondFlags_mbxSrc (f : OrgFlags) (s : State) : (respondFlags f s).mbxSrc = s.mbxSrc := rfl
@[simp] theorem respondFlags_enc (f : OrgFlags) (s : State) : (respondFlags f s).enc = s.enc := rfl
@[simp] theorem respondFlags_smq (f : OrgFlags) (s : State) : (respondFlags f s).smq = s.smq := rfl
@[simp] theorem respondFlags_hpq (f : OrgFlags) (s : State) : (respondFlags f s).hpq = s.hpq := rfl
@[simp] theorem respondFlags_lpq (f : OrgFlags) (s : State) : (respondFlags f s).lpq = s.lpq := rfl
@[simp] theorem respondFlags_rpt (f : OrgFlags) (s : State) : (respondFlags f s).rpt = s.rpt := rfl
@[simp] theorem respondFlags_loco (f : OrgFlags) (s : State) : (respondFlags f s).loco = s.loco := rfl
@[simp] theorem respondFlags_rfCursor (f : OrgFlags) (s : State) : (respondFlags f s).rfCursor = s.rfCursor := rfl
@[simp] theorem respondFlags_rfLevel (f : OrgFlags) (s : State) : (respondFlags f s).rfLevel = s.rfLevel := rfl
@[simp] theorem respondFlags_last (f : OrgFlags) (s : State) : (respondFlags f s).last = s.last := rfl
@[simp] theorem respondFlags_lastValid (f : OrgFlags) (s : State) : (respondFlags f s).lastValid = s.lastValid := rfl
@[simp] theorem respondFlags_prog (f : OrgFlags) (s : State) : (respondFlags f s).prog = s.prog := rfl
@[simp] theorem respondFlags_cmd (f : OrgFlags) (s : State) : (respondFlags f s).cmd = s.cmd := rfl
@[simp] theorem respondFlags_resp (f : OrgFlags) (s : State) : (respondFlags f s).resp = response f.status 0 := rfl
@[simp] theorem respondFlags_track (f : OrgFlags) (s : State) : (respondFlags f s).track = s.track := rfl
@[simp] theorem respondFlags_cutoutEn (f : OrgFlags) (s : State) : (respondFlags f s).cutoutEn = s.cutoutEn := rfl
@[simp] theorem respondFlags_clockMs (f : OrgFlags) (s : State) : (respondFlags f s).clockMs = s.clockMs := rfl
@[simp] theorem respondFlags_ackIn (f : OrgFlags) (s : State) : (respondFlags f s).ackIn = s.ackIn := rfl
@[simp] theorem respondFlags_agenda (f : OrgFlags) (s : State) : (respondFlags f s).agenda = s.agenda := rfl
@[simp] theorem respondFlags_ackDraws (f : OrgFlags) (s : State) : (respondFlags f s).ackDraws = s.ackDraws := rfl
@[simp] theorem respondFlags_eventDraws (f : OrgFlags) (s : State) : (respondFlags f s).eventDraws = s.eventDraws := rfl

/-! ## `respondIllegal` -/

@[simp] theorem respondIllegal_params (s : State) : (respondIllegal s).params = s.params := rfl
@[simp] theorem respondIllegal_runMode (s : State) : (respondIllegal s).runMode = s.runMode := rfl
@[simp] theorem respondIllegal_mbx (s : State) : (respondIllegal s).mbx = s.mbx := rfl
@[simp] theorem respondIllegal_mbxCnt (s : State) : (respondIllegal s).mbxCnt = s.mbxCnt := rfl
@[simp] theorem respondIllegal_mbxSrc (s : State) : (respondIllegal s).mbxSrc = s.mbxSrc := rfl
@[simp] theorem respondIllegal_enc (s : State) : (respondIllegal s).enc = s.enc := rfl
@[simp] theorem respondIllegal_smq (s : State) : (respondIllegal s).smq = s.smq := rfl
@[simp] theorem respondIllegal_hpq (s : State) : (respondIllegal s).hpq = s.hpq := rfl
@[simp] theorem respondIllegal_lpq (s : State) : (respondIllegal s).lpq = s.lpq := rfl
@[simp] theorem respondIllegal_rpt (s : State) : (respondIllegal s).rpt = s.rpt := rfl
@[simp] theorem respondIllegal_loco (s : State) : (respondIllegal s).loco = s.loco := rfl
@[simp] theorem respondIllegal_rfCursor (s : State) : (respondIllegal s).rfCursor = s.rfCursor := rfl
@[simp] theorem respondIllegal_rfLevel (s : State) : (respondIllegal s).rfLevel = s.rfLevel := rfl
@[simp] theorem respondIllegal_last (s : State) : (respondIllegal s).last = s.last := rfl
@[simp] theorem respondIllegal_lastValid (s : State) : (respondIllegal s).lastValid = s.lastValid := rfl
@[simp] theorem respondIllegal_prog (s : State) : (respondIllegal s).prog = s.prog := rfl
@[simp] theorem respondIllegal_cmd (s : State) : (respondIllegal s).cmd = s.cmd := rfl
@[simp] theorem respondIllegal_resp (s : State) : (respondIllegal s).resp = response stIllegal 0 := rfl
@[simp] theorem respondIllegal_track (s : State) : (respondIllegal s).track = s.track := rfl
@[simp] theorem respondIllegal_cutoutEn (s : State) : (respondIllegal s).cutoutEn = s.cutoutEn := rfl
@[simp] theorem respondIllegal_clockMs (s : State) : (respondIllegal s).clockMs = s.clockMs := rfl
@[simp] theorem respondIllegal_ackIn (s : State) : (respondIllegal s).ackIn = s.ackIn := rfl
@[simp] theorem respondIllegal_agenda (s : State) : (respondIllegal s).agenda = s.agenda := rfl
@[simp] theorem respondIllegal_ackDraws (s : State) : (respondIllegal s).ackDraws = s.ackDraws := rfl
@[simp] theorem respondIllegal_eventDraws (s : State) : (respondIllegal s).eventDraws = s.eventDraws := rfl

/-! ## Chains of updates -/

/-- Two writes of the programmer's registers are one. -/
@[simp] theorem setProg_setProg (f g : Programmer → Programmer) (s : State) :
    setProg f (setProg g s) = setProg (fun x => f (g x)) s := rfl

/-- Two writes of the encoder's registers are one. -/
@[simp] theorem setEnc_setEnc (f g : Encoder → Encoder) (s : State) :
    setEnc f (setEnc g s) = setEnc (fun x => f (g x)) s := rfl

/-- A state is the update of another in one field. -/
theorem setProg_eq (f : Programmer → Programmer) (s : State) : setProg f s = { s with prog := f s.prog } := rfl

end Sys2Proof.Machine
end

