-- ==== Sys2Proof/Laws/Ops.lean ====
section
/-! SUPPORT. What each shared operation can do, said once: outcomes, rings, the mailbox, the inputs, the enqueue. -/

namespace Sys2Proof.Machine

/-! ## Outcomes -/

@[simp] theorem andThen_next (s : State) (f : State → Result) : andThen (.next s) f = f s := rfl
@[simp] theorem andThen_fault (r : Fault) (f : State → Result) : andThen (.fault r) f = .fault r := rfl
@[simp] theorem andThen_refused (r : Refusal) (f : State → Result) : andThen (.refused r) f = .refused r := rfl

/-- A sequence reaches a next state exactly through one of its first part. -/
theorem andThen_eq_next {o : Result} {f : State → Result} {t : State} :
    andThen o f = .next t ↔ ∃ s, o = .next s ∧ f s = .next t := by
  cases o <;> simp [andThen]

/-- A sequence faults in its first part or in its second. -/
theorem andThen_eq_fault {o : Result} {f : State → Result} {r : Fault} :
    andThen o f = .fault r ↔ o = .fault r ∨ ∃ s, o = .next s ∧ f s = .fault r := by
  cases o <;> simp [andThen]

/-- A sequence refuses in its first part or in its second. -/
theorem andThen_eq_refused {o : Result} {f : State → Result} {r : Refusal} :
    andThen o f = .refused r ↔ o = .refused r ∨ ∃ s, o = .next s ∧ f s = .refused r := by
  cases o <;> simp [andThen]

/-! ## Rings (10_state R30) -/

/-- A push succeeds exactly where the ring is not full, and writes slot `wr`. -/
theorem Ring.push_eq_some {q q' : Ring} {m : Message} :
    q.push m = some q' ↔
      q.full = false ∧ q' = { q with slots := q.slots.set q.wr m, wr := (q.wr + 1) % q.slots.length } := by
  unfold Ring.push
  split
  · simp_all
  · rename_i h
    simp only [Option.some.injEq, h, true_and]
    exact eq_comm

/-- A push fails exactly where the ring is full. -/
theorem Ring.push_eq_none {q : Ring} {m : Message} : q.push m = none ↔ q.full = true := by
  unfold Ring.push
  split <;> simp_all

/-- A push keeps a ring's shape. -/
theorem Ring.push_ok {n : Nat} {q q' : Ring} {m : Message} (h : q.Ok n) (hp : q.push m = some q') : q'.Ok n := by
  obtain ⟨-, rfl⟩ := Ring.push_eq_some.mp hp
  obtain ⟨hl, hr, hw⟩ := h
  exact ⟨by simpa using hl, hr, by simpa [hl] using Nat.mod_lt _ (by omega)⟩

/-- A pop keeps a ring's shape. -/
theorem Ring.pop_ok {n : Nat} {q : Ring} (h : q.Ok n) : q.pop.Ok n := by
  obtain ⟨hl, hr, hw⟩ := h
  exact ⟨hl, by simpa [Ring.pop, hl] using Nat.mod_lt _ (by omega), hw⟩

/-- A replacement keeps a ring's shape. -/
theorem Ring.replace_ok {n : Nat} {q : Ring} (j : Nat) (m : Message) (h : q.Ok n) : (q.replace j m).Ok n := by
  obtain ⟨hl, hr, hw⟩ := h
  exact ⟨by simpa [Ring.replace] using hl, hr, hw⟩

/-- Every slot after a push held its message before or holds the pushed one. -/
theorem Ring.mem_push {q q' : Ring} {m x : Message} (hp : q.push m = some q') (hx : x ∈ q'.slots) :
    x ∈ q.slots ∨ x = m := by
  obtain ⟨-, rfl⟩ := Ring.push_eq_some.mp hp
  exact List.mem_or_eq_of_mem_set hx

/-- Every slot after a replacement held its message before or holds the new one. -/
theorem Ring.mem_replace {q : Ring} {j : Nat} {m x : Message} (hx : x ∈ (q.replace j m).slots) :
    x ∈ q.slots ∨ x = m :=
  List.mem_or_eq_of_mem_set hx

/-- A ring's head is one of its slots. -/
theorem Ring.head_mem {q : Ring} {m : Message} (h : q.head = some m) : m ∈ q.slots := by
  unfold Ring.head at h
  split at h
  · cases h
  · exact List.mem_of_getElem? h

/-- A ring that has a head is not empty. -/
theorem Ring.head_not_empty {q : Ring} {m : Message} (h : q.head = some m) : q.empty = false := by
  unfold Ring.head at h
  split at h
  · cases h
  · simp_all

/-- Pushing to `SMQ` changes nothing else, and fails exactly where it is full. -/
theorem pushSmq_eq (m : Message) (s : State) :
    pushSmq m s = ({ s with smq := (s.smq.push m).getD s.smq }, s.smq.full) := by
  unfold pushSmq Ring.push
  split <;> split at * <;> simp_all

/-- Pushing to `HPQ` changes nothing else, and fails exactly where it is full. -/
theorem pushHpq_eq (m : Message) (s : State) :
    pushHpq m s = ({ s with hpq := (s.hpq.push m).getD s.hpq }, s.hpq.full) := by
  unfold pushHpq Ring.push
  split <;> split at * <;> simp_all

/-- A push that may fail keeps a ring's shape. -/
theorem Ring.push_getD_ok {n : Nat} {q : Ring} (m : Message) (h : q.Ok n) : ((q.push m).getD q).Ok n := by
  cases hp : q.push m with
  | none => exact h
  | some q' => exact Ring.push_ok h hp

/-! ## The low-priority insert (42_organizer R213) -/

/-- An insert keeps a ring's shape. -/
theorem lpInsertRing_ok {n : Nat} {q : Ring} (m : Message) (h : q.Ok n) : ((lpInsertRing q m).getD q).Ok n := by
  unfold lpInsertRing
  split
  · exact Ring.push_getD_ok m h
  · split
    · exact Ring.replace_ok _ _ h
    · exact Ring.push_getD_ok m h

/-- Every slot after an insert held its message before or holds the inserted one. -/
theorem mem_lpInsertRing {q q' : Ring} {m x : Message} (hq : lpInsertRing q m = some q') (hx : x ∈ q'.slots) :
    x ∈ q.slots ∨ x = m := by
  unfold lpInsertRing at hq
  split at hq
  · exact Ring.mem_push hq hx
  · split at hq
    · cases hq
      exact Ring.mem_replace hx
    · exact Ring.mem_push hq hx

/-- An insert changes nothing but `LPQ`. -/
theorem lpInsert_eq (m : Message) (s : State) :
    lpInsert m s = ({ s with lpq := (lpInsertRing s.lpq m).getD s.lpq }, (lpInsertRing s.lpq m).isNone) := by
  unfold lpInsert
  split <;> simp_all

/-- An enqueue in a PROG mode is a push to `SMQ`. -/
theorem enqueue_prog {m : Message} {s : State} (h : isProg s.runMode = true) :
    enqueue m s = ({ s with smq := (s.smq.push m).getD s.smq }, s.smq.full) := by
  simp [enqueue, h, pushSmq_eq]

/-- An enqueue in a RUN mode is an insert into `LPQ`. -/
theorem enqueue_run {m : Message} {s : State} (h : isProg s.runMode = false) :
    enqueue m s = ({ s with lpq := (lpInsertRing s.lpq m).getD s.lpq }, (lpInsertRing s.lpq m).isNone) := by
  simp [enqueue, h, lpInsert_eq]

/-- An enqueue changes nothing but the two queues. -/
theorem enqueue_frame (m : Message) (s : State) :
    (enqueue m s).1 = { s with smq := (enqueue m s).1.smq, lpq := (enqueue m s).1.lpq } := by
  cases h : isProg s.runMode
  · simp [enqueue_run h]
  · simp [enqueue_prog h]

/-! ## The mailbox (20_memory R63) -/

/-- A dispatch succeeds exactly into a free mailbox with a legal size, and writes the mailbox and `LAST` only. -/
theorem dispatch_eq_next {m : Message} {n : Byte} {src : MbxSrc} {s t : State} :
    dispatch m n src s = .next t ↔
      s.mbxCnt = 0 ∧ sizeOk m = true ∧
      t = { s with mbx := m, mbxSrc := src, last := m, lastValid := true, mbxCnt := n } := by
  by_cases h : s.mbxCnt = 0 <;> cases hz : sizeOk m <;> simp only [dispatch, h, hz] <;> grind

/-- A dispatch faults exactly on a race, or else on a bad size. -/
theorem dispatch_eq_fault {m : Message} {n : Byte} {src : MbxSrc} {s : State} {r : Fault} :
    dispatch m n src s = .fault r ↔
      (s.mbxCnt ≠ 0 ∧ r = .mailboxRace m) ∨ (s.mbxCnt = 0 ∧ sizeOk m = false ∧ r = .badSize m) := by
  by_cases h : s.mbxCnt = 0 <;> cases hz : sizeOk m <;> simp only [dispatch, h, hz] <;> grind

/-- A dispatch never refuses. -/
theorem dispatch_not_refused {m : Message} {n : Byte} {src : MbxSrc} {s : State} {r : Refusal} :
    dispatch m n src s ≠ .refused r := by
  unfold dispatch
  split
  · simp
  · split <;> simp

/-! ## The acknowledgment input (10_state R27) -/

/-- A sample changes nothing but the input's own bookkeeping. -/
theorem sampleAck_frame (s : State) :
    (sampleAck s).2 = { s with ackIn := (sampleAck s).2.ackIn, ackDraws := (sampleAck s).2.ackDraws } := by
  unfold sampleAck
  split <;> rfl

/-- Any number of samples change nothing but the input's own bookkeeping. -/
theorem countAcks_frame (n : Nat) (s : State) :
    (countAcks n s).2 = { s with ackIn := (countAcks n s).2.ackIn, ackDraws := (countAcks n s).2.ackDraws } := by
  induction n generalizing s with
  | zero => rfl
  | succ n ih =>
    simp only [countAcks]
    rw [ih, sampleAck_frame]

/-- An acknowledgment poll changes nothing but the input's own bookkeeping. -/
theorem ackPoll_frame (s : State) :
    (ackPoll s).2 = { s with ackIn := (ackPoll s).2.ackIn, ackDraws := (ackPoll s).2.ackDraws } :=
  countAcks_frame _ _

end Sys2Proof.Machine
end

