-- ==== Sys2Proof/Laws/Organizer.lean ====
section
/-! SUPPORT. What the organizer's operations can do, said once: the searches, the table, the repeat buffer, the refresh sweep
and the selection (42_organizer). -/

namespace Sys2Proof.Machine

/-! ## Searches -/

/-- A search by index answers the first hit. -/
theorem findIdx?_eq_some {α : Type} {l : List α} {f : α → Bool} {i : Nat} :
    l.findIdx? f = some i ↔
      ∃ x, l[i]? = some x ∧ f x = true ∧ ∀ j y, j < i → l[j]? = some y → f y = false := by
  rw [List.findIdx?_eq_some_iff_getElem]
  constructor
  · rintro ⟨h, hx, hj⟩
    refine ⟨l[i], by simp [h], hx, fun j y hji hy => ?_⟩
    have := hj j hji
    obtain ⟨hl, rfl⟩ := List.getElem?_eq_some_iff.mp hy
    simpa using this
  · rintro ⟨x, hx, hf, hj⟩
    obtain ⟨hl, rfl⟩ := List.getElem?_eq_some_iff.mp hx
    exact ⟨hl, hf, fun j hji => by simpa using hj j l[j] hji (by simp)⟩

/-- The index of an address is the first entry that holds it (42_organizer R210). -/
theorem locoFind_eq_some {l : List LocoEntry} {a : LocoAddr} {i : Nat} : locoFind l a = some i ↔ HoldsAt l a i := by
  simp only [locoFind, findIdx?_eq_some, HoldsAt, locoAt, beq_iff_eq, beq_eq_false_iff_ne]
  constructor
  · rintro ⟨x, hx, ha, hj⟩
    obtain ⟨hl, rfl⟩ := List.getElem?_eq_some_iff.mp hx
    refine ⟨hl, by simpa [List.getD, hx] using ha, fun j hji => ?_⟩
    have hjl : j < l.length := by omega
    simpa [List.getD, hjl] using hj j l[j] hji (by simp [hjl])
  · rintro ⟨hl, ha, hj⟩
    refine ⟨l[i], by simp [hl], by simpa [List.getD, hl] using ha, fun j y hji hy => ?_⟩
    obtain ⟨hjl, rfl⟩ := List.getElem?_eq_some_iff.mp hy
    simpa [List.getD, hjl] using hj j hji

/-- No index where no entry holds the address. -/
theorem locoFind_eq_none {l : List LocoEntry} {a : LocoAddr} : locoFind l a = none ↔ Absent l a := by
  simp only [locoFind, List.findIdx?_eq_none_iff, Absent, locoAt, beq_eq_false_iff_ne]
  constructor
  · intro h j hj
    simpa [List.getD, hj] using h l[j] (List.getElem_mem hj)
  · intro h x hx
    obtain ⟨j, hj, rfl⟩ := List.getElem_of_mem hx
    simpa [List.getD, hj] using h j hj

/-! ## The repeat buffer (42_organizer R214) -/

@[simp] theorem rptPut_length (m : Message) (l : List RptEntry) : (rptPut m l).length = l.length := by
  unfold rptPut
  split
  · simp
  · split <;> simp

@[simp] theorem rptClear_length (k : Key) (l : List RptEntry) : (rptClear k l).length = l.length := by
  simp [rptClear]

/-- Every entry after a put was there before or holds the put message. -/
theorem mem_rptPut {m : Message} {l : List RptEntry} {e : RptEntry} (h : e ∈ rptPut m l) : e ∈ l ∨ e.msg = m := by
  unfold rptPut at h
  split at h
  · rcases List.mem_or_eq_of_mem_set h with h | rfl
    · exact .inl h
    · exact .inr rfl
  · split at h
    · exact .inl h
    · rcases List.mem_or_eq_of_mem_set h with h | rfl
      · exact .inl h
      · exact .inr rfl

/-! ## The refresh sweep (42_organizer R220 to R222) -/

@[simp] theorem ageLoco_addr (p : Params) (e : LocoEntry) : (ageLoco p e).addr = e.addr := by
  unfold ageLoco
  split <;> rfl

@[simp] theorem ageLoco_active (p : Params) (e : LocoEntry) : (ageLoco p e).active = e.active := by
  unfold ageLoco
  split <;> rfl

/-- What an entry has to refresh does not depend on its age. -/
@[simp] theorem refreshOf_ageLoco (p : Params) (lvl : Nat) (e : LocoEntry) :
    refreshOf p lvl (ageLoco p e) = refreshOf p lvl e := by
  unfold ageLoco
  split <;> rfl

@[simp] theorem advanceLevel_length (p : Params) (w : Sweep) : (advanceLevel p w).loco.length = w.loco.length := by
  unfold advanceLevel
  split <;> simp

@[simp] theorem advanceCursor_length (p : Params) (w : Sweep) : (advanceCursor p w).loco.length = w.loco.length := by
  simp only [advanceCursor]
  split <;> simp

/-- A sweep's search changes the cursor, the level and the ages of the table, never its length. -/
@[simp] theorem refreshScan_length (p : Params) (n : Nat) (w : Sweep) :
    (refreshScan p n w).2.loco.length = w.loco.length := by
  induction n generalizing w with
  | zero => rfl
  | succ n ih =>
    simp only [refreshScan]
    split
    · simp
    · simp [ih]

/-- Asking for a refresh candidate changes nothing but the scheduler's registers and the ages. -/
theorem refreshNext_frame (s : State) :
    (refreshNext s).2.2 = { s with
      rfCursor := (refreshNext s).2.2.rfCursor
      rfLevel := (refreshNext s).2.2.rfLevel
      loco := (refreshNext s).2.2.loco } := by
  simp only [refreshNext]
  split <;> rfl

/-! ## Selection (42_organizer R201) -/

/-- Whatever the selection answers, it answers by one dispatch, from a state in which only the queues' read pointers, the
repeat buffer and the refresh scheduler have moved. -/
theorem organizerDispatch_cases (s : State) :
    ∃ (m : Message) (n : Byte) (src : MbxSrc) (s1 : State), organizerDispatch s = dispatch m n src s1 ∧ src ≠ .noSrc ∧
      s1 = { s with
        smq := s1.smq, hpq := s1.hpq, lpq := s1.lpq, rpt := s1.rpt, rfCursor := s1.rfCursor, rfLevel := s1.rfLevel
        loco := s1.loco } := by
  have hr : ∃ (m : Message) (n : Byte) (src : MbxSrc) (s1 : State), dispatchRefresh s = dispatch m n src s1 ∧
      src ≠ .noSrc ∧ s1 = { s with
        smq := s1.smq, hpq := s1.hpq, lpq := s1.lpq, rpt := s1.rpt, rfCursor := s1.rfCursor, rfLevel := s1.rfLevel
        loco := s1.loco } := by
    have hf := refreshNext_frame s
    have hsrc : (refreshNext s).2.1 ≠ .noSrc := by
      simp only [refreshNext]
      split <;> simp
    simp only [dispatchRefresh]
    split
    · exact ⟨_, _, _, _, rfl, hsrc, by rw [hf]⟩
    · exact ⟨_, _, _, _, rfl, by simp, by rw [hf]⟩
  have hp : ∃ (m : Message) (n : Byte) (src : MbxSrc) (s1 : State), dispatchRepeat s = dispatch m n src s1 ∧
      src ≠ .noSrc ∧ s1 = { s with
        smq := s1.smq, hpq := s1.hpq, lpq := s1.lpq, rpt := s1.rpt, rfCursor := s1.rfCursor, rfLevel := s1.rfLevel
        loco := s1.loco } := by
    unfold dispatchRepeat
    split
    · split
      · split
        · exact ⟨_, _, _, _, rfl, by simp, rfl⟩
        · exact hr
      · exact hr
    · exact hr
  have hl : ∃ (m : Message) (n : Byte) (src : MbxSrc) (s1 : State), dispatchLow s = dispatch m n src s1 ∧
      src ≠ .noSrc ∧ s1 = { s with
        smq := s1.smq, hpq := s1.hpq, lpq := s1.lpq, rpt := s1.rpt, rfCursor := s1.rfCursor, rfLevel := s1.rfLevel
        loco := s1.loco } := by
    unfold dispatchLow
    split
    · split
      · exact ⟨_, _, _, _, rfl, by simp, rfl⟩
      · exact hp
    · exact hp
  unfold organizerDispatch
  split
  · unfold dispatchProg
    split
    · exact ⟨_, _, _, _, rfl, by simp, rfl⟩
    · exact ⟨_, _, _, _, rfl, by simp, rfl⟩
  · unfold dispatchRun
    split
    · split
      · exact ⟨_, _, _, _, rfl, by simp, rfl⟩
      · exact hl
    · exact hl

end Sys2Proof.Machine
end

