-- ==== Sys2Proof/Laws/PerInstr.lean ====
section
/-! SUPPORT. A fact of every command as syntax, one lemma per constructor: the word that spells it has the command's opcode,
`RSV` 0, and 0 in every field the opcode does not use (30_encoding R80, R83, R84). -/

/-- The shape of the word that spells a command (30_encoding R83). -/
def Sys2Proof.Laws.WordShape.Statement (i : Sys2Proof.Instr) : Prop :=
  (Sys2Proof.fieldsOf (Sys2Proof.encode i)).op = i.op.code ∧ (Sys2Proof.fieldsOf (Sys2Proof.encode i)).rsv = 0 ∧
  i.op.unusedZero (Sys2Proof.fieldsOf (Sys2Proof.encode i)) = true

namespace Sys2Proof.Laws.WordShape

/-- The shape of a word follows from the fields it is assembled from. -/
theorem of_fields {i : Instr} (h : i.op.unusedZero i.fields = true) : Statement i := by
  simp only [Statement, fieldsOf_encode]
  exact ⟨rfl, rfl, h⟩

theorem locoSpeed (addr : LocoAddr) (speed : Byte) : Statement (.locoSpeed addr speed) := of_fields rfl
theorem locoFgrp1 (addr : LocoAddr) (funcs : BitVec 5) : Statement (.locoFgrp1 addr funcs) := of_fields rfl
theorem locoFgrp2 (addr : LocoAddr) (funcs : BitVec 4) : Statement (.locoFgrp2 addr funcs) := of_fields rfl
theorem locoFgrp3 (addr : LocoAddr) (funcs : BitVec 4) : Statement (.locoFgrp3 addr funcs) := of_fields rfl
theorem locoFgrp4 (addr : LocoAddr) (funcs : Byte) : Statement (.locoFgrp4 addr funcs) := of_fields rfl
theorem locoFgrp5 (addr : LocoAddr) (funcs : Byte) : Statement (.locoFgrp5 addr funcs) := of_fields rfl
theorem locoForget (addr : LocoAddr) : Statement (.locoForget addr) := of_fields rfl
theorem bcastStop (emerg : Bool) : Statement (.bcastStop emerg) := of_fields rfl
theorem accBasic (addr : BitVec 12) (act : Bool) : Statement (.accBasic addr act) := of_fields rfl
theorem accExt (addr : BitVec 11) (aspect : BitVec 5) : Statement (.accExt addr aspect) := of_fields rfl
theorem pomLocoWrbyte (addr : LocoAddr) (cva : CvAddr) (data : Byte) : Statement (.pomLocoWrbyte addr cva data) := of_fields rfl
theorem pomLocoWrbit (addr : LocoAddr) (cva : CvAddr) (bit : BitPos) (val : Bool) : Statement (.pomLocoWrbit addr cva bit val) := of_fields rfl
theorem pomLocoVerify (addr : LocoAddr) (cva : CvAddr) (data : Byte) : Statement (.pomLocoVerify addr cva data) := of_fields rfl
theorem pomAccWrbyte (dec : BitVec 9) (cva : CvAddr) (data : Byte) : Statement (.pomAccWrbyte dec cva data) := of_fields rfl
theorem fastClock (min : BitVec 6) (hour : BitVec 5) (wday : BitVec 3) (ratio : BitVec 6) : Statement (.fastClock min hour wday ratio) := of_fields rfl
theorem queryReady : Statement (.queryReady) := of_fields rfl
theorem findActive (addr : LocoAddr) : Statement (.findActive addr) := of_fields rfl
theorem nextActive (addr : LocoAddr) : Statement (.nextActive addr) := of_fields rfl
theorem prevActive (addr : LocoAddr) : Statement (.prevActive addr) := of_fields rfl
theorem progRegRead (reg : RegIdx) : Statement (.progRegRead reg) := of_fields rfl
theorem progRegWrite (reg : RegIdx) (data : Byte) : Statement (.progRegWrite reg data) := of_fields rfl
theorem progPagedRead (cva : CvAddr) : Statement (.progPagedRead cva) := of_fields rfl
theorem progPagedWrite (cva : CvAddr) (data : Byte) : Statement (.progPagedWrite cva data) := of_fields rfl
theorem progDirectRead (cva : CvAddr) : Statement (.progDirectRead cva) := of_fields rfl
theorem progDirectWrite (cva : CvAddr) (data : Byte) : Statement (.progDirectWrite cva data) := of_fields rfl
theorem progDirectBitWrite (cva : CvAddr) (bit : BitPos) (val : Bool) : Statement (.progDirectBitWrite cva bit val) := of_fields rfl
theorem progDirectBitVerify (cva : CvAddr) (bit : BitPos) (val : Bool) : Statement (.progDirectBitVerify cva bit val) := of_fields rfl
theorem progLongaddrRead : Statement (.progLongaddrRead) := of_fields rfl
theorem progLongaddrWrite (addr : LocoAddr) : Statement (.progLongaddrWrite addr) := of_fields rfl
theorem progQueryBitcap : Statement (.progQueryBitcap) := of_fields rfl
theorem progTerminate : Statement (.progTerminate) := of_fields rfl
theorem progStatus : Statement (.progStatus) := of_fields rfl
theorem progValue : Statement (.progValue) := of_fields rfl

end Sys2Proof.Laws.WordShape
end

