-- ==== Sys2Proof/Laws/Programmer.lean ====
section
/-! SUPPORT. What the programmer's operations can do, said once: whose turn it is, and that each layer writes nothing but its
own registers and `SMQ` (43_programmer R264). -/

namespace Sys2Proof.Machine

/-! ## Whose turn it is (43_programmer R264) -/

/-- A task that steps in `PROG_OKAY` reaches its innermost layer. -/
theorem progStep_of_stepping {s : State} (h : Stepping s) : progStep s = layerStep s := by
  obtain ⟨hs, hm⟩ := h
  simp [progStep, hs, modeCheck, hm, progAct]

/-- The byte layer's turn. -/
theorem progStep_of_byteTurn {s : State} (h : ByteTurn s) : progStep s = .next (byteStep s) := by
  obtain ⟨hs, hb, hi⟩ := h
  rw [progStep_of_stepping hs]
  rcases hi with hi | hi <;> simp [layerStep, hi, hb]

/-- The sequence layer's turn. -/
theorem progStep_of_seqTurn {s : State} (h : SeqTurn s) : progStep s = seqStep s := by
  obtain ⟨hs, hb, hi⟩ := h
  rw [progStep_of_stepping hs]
  rcases hi with hi | hi <;> simp [layerStep, hi, hb]

/-! ## Frames -/

/-- The update changed only the programmer's registers. -/
def OnlyProg (s t : State) : Prop := t = { s with prog := t.prog }

theorem onlyProg_refl (s : State) : OnlyProg s s := rfl

theorem onlyProg_setProg (f : Programmer → Programmer) (s : State) : OnlyProg s (setProg f s) := rfl

theorem OnlyProg.trans {s t u : State} (h1 : OnlyProg s t) (h2 : OnlyProg t u) : OnlyProg s u := by
  unfold OnlyProg at *
  rw [h2, h1]

theorem onlyProg_finish (code : Byte) (s : State) : OnlyProg s (finish code s) := rfl
theorem onlyProg_innerStart (m : Message) (wr : Bool) (s : State) : OnlyProg s (innerStart m wr s) := rfl
theorem onlyProg_byteFinish (r : ByteRes) (s : State) : OnlyProg s (byteFinish r s) := rfl
theorem onlyProg_toPc (pc : BitVec 3) (s : State) : OnlyProg s (toPc pc s) := rfl

theorem onlyProg_capDecided (yes : Bool) (s : State) : OnlyProg s (capDecided yes s) := by
  unfold capDecided
  split <;> rfl

theorem onlyProg_phaseIssue (s : State) : OnlyProg s (phaseIssue s) := by
  unfold phaseIssue
  split
  · split
    · exact onlyProg_capDecided _ _
    · rfl
  · split <;> rfl
  · rfl

theorem onlyProg_byteIssue (s : State) : OnlyProg s (byteIssue s) := by
  unfold byteIssue
  split <;> first | rfl | exact onlyProg_phaseIssue s

theorem onlyProg_phaseResult (a : Bool) (s : State) : OnlyProg s (phaseResult a s) := by
  unfold phaseResult
  split
  · unfold capResult
    split
    · rfl
    · exact (onlyProg_setProg _ _).trans (onlyProg_capDecided _ _)
  · unfold bitsResult
    split
    · rfl
    · split <;> rfl
  · unfold scanResult
    split
    · rfl
    · split <;> rfl

theorem onlyProg_byteResult (a : Bool) (s : State) : OnlyProg s (byteResult a s) := by
  unfold byteResult
  split <;> first | rfl | exact onlyProg_phaseResult a s

/-- A byte step writes only the programmer's registers. -/
theorem onlyProg_byteStep (s : State) : OnlyProg s (byteStep s) := by
  unfold byteStep
  split
  · exact (onlyProg_setProg _ _).trans (onlyProg_byteResult _ _)
  · exact onlyProg_byteIssue s

/-- Run-mode supervision writes only the programmer's registers. -/
theorem onlyProg_modeCheck (s : State) : OnlyProg s (modeCheck s) := by
  unfold modeCheck
  split
  · rfl
  · split
    · rfl
    · split <;> rfl

/-- An inner step writes only its registers, `SMQ` and the acknowledgment input's bookkeeping. -/
theorem innerStep_frame (s : State) :
    innerStep s = { s with
      smq := (innerStep s).smq
      prog := (innerStep s).prog
      ackIn := (innerStep s).ackIn
      ackDraws := (innerStep s).ackDraws } := by
  have hp : ∀ (m : Message) (st : InnerState), innerPush m st s = { s with
      smq := (innerPush m st s).smq
      prog := (innerPush m st s).prog
      ackIn := (innerPush m st s).ackIn
      ackDraws := (innerPush m st s).ackDraws } := by
    intro m st
    unfold innerPush
    split <;> rfl
  have hw : innerWait s = { s with
      smq := (innerWait s).smq
      prog := (innerWait s).prog
      ackIn := (innerWait s).ackIn
      ackDraws := (innerWait s).ackDraws } := by
    have hf := ackPoll_frame s
    simp only [innerWait]
    generalize (ackPoll s).1 = a
    generalize (ackPoll s).2 = s1 at hf ⊢
    rw [hf]
    cases a <;> simp only [if_true, Bool.false_eq_true, if_false] <;> split <;> rfl
  unfold innerStep
  split
  · exact hp _ _
  · exact hp _ _
  · exact hw
  · exact hp _ _
  · rfl
  · rfl

end Sys2Proof.Machine
end

