-- ==== Sys2Proof/Tests/Slice0.lean ====
section
/-! SUPPORT. The model's own tests: ill-formed terms, words written out from the spec's field table, one step of each command
against spec/95_test_vectors.md and the rules' own examples, and a witness for the hypotheses of every statement. -/

namespace Sys2Proof.Tests

open Sys2Proof.Machine

/-! ## Well-formedness: one ill-formed term for each check (30_encoding R83, R84) -/

theorem test_wf_address_zero : (Instr.locoSpeed 0 0).wellFormed true = false := by decide
theorem test_wf_address_too_large : (Instr.locoForget 10240).wellFormed true = false := by decide
theorem test_wf_pom_address_zero : (Instr.pomLocoWrbyte 0 0 0).wellFormed true = false := by decide
theorem test_wf_long_address_zero : (Instr.progLongaddrWrite 0).wellFormed true = false := by decide
theorem test_wf_next_too_large : (Instr.nextActive 10240).wellFormed true = false := by decide
theorem test_wf_prev_zero : (Instr.prevActive 0).wellFormed true = true := by decide
theorem test_wf_group4_without_ext : (Instr.locoFgrp4 3 0).wellFormed false = false := by decide
theorem test_wf_group5_without_ext : (Instr.locoFgrp5 3 0).wellFormed false = false := by decide
theorem test_wf_minute : (Instr.fastClock 60 0 0 0).wellFormed true = false := by decide
theorem test_wf_hour : (Instr.fastClock 0 24 0 0).wellFormed true = false := by decide
theorem test_wf_weekday : (Instr.fastClock 0 0 7 0).wellFormed true = false := by decide

/-! ## Decoding: `{OP, ADDR, CV, DATA, AUX, RSV}` written out from 30_encoding R80, R81, R84 -/

theorem test_decode_loco_speed : decode true 0x0100030000420000 = .ok (.locoSpeed 3 0x42) := by decide
theorem test_decode_loco_fgrp1 : decode true 0x02000300001F0000 = .ok (.locoFgrp1 3 31) := by decide
theorem test_decode_loco_fgrp2 : decode true 0x0300030000090000 = .ok (.locoFgrp2 3 9) := by decide
theorem test_decode_loco_fgrp3 : decode true 0x0400030000060000 = .ok (.locoFgrp3 3 6) := by decide
theorem test_decode_loco_fgrp4 : decode true 0x0500030000810000 = .ok (.locoFgrp4 3 0x81) := by decide
theorem test_decode_loco_fgrp5 : decode true 0x0627FF0000FE0000 = .ok (.locoFgrp5 10239 0xFE) := by decide
theorem test_decode_loco_forget : decode true 0x0703E80000000000 = .ok (.locoForget 1000) := by decide
theorem test_decode_bcast_stop : decode true 0x0800000000000100 = .ok (.bcastStop true) := by decide
theorem test_decode_acc_basic : decode true 0x100FFD0000000100 = .ok (.accBasic 4093 true) := by decide
theorem test_decode_acc_ext : decode true 0x1107FF00001F0000 = .ok (.accExt 2047 31) := by decide
theorem test_decode_pom_loco_wrbyte : decode true 0x180003001D220000 = .ok (.pomLocoWrbyte 3 28 0x22) := by decide
theorem test_decode_pom_loco_wrbit : decode true 0x190003001D000D00 = .ok (.pomLocoWrbit 3 28 5 true) := by decide
theorem test_decode_pom_loco_verify : decode true 0x1A04D20400FF0000 = .ok (.pomLocoVerify 1234 1023 0xFF) := by decide
theorem test_decode_pom_acc_wrbyte : decode true 0x1B01FF0001070000 = .ok (.pomAccWrbyte 511 0 7) := by decide
theorem test_decode_fast_clock : decode true 0x200A0600003B1700 = .ok (.fastClock 59 23 6 10) := by decide
theorem test_decode_query_ready : decode true 0x2800000000000000 = .ok .queryReady := by decide
theorem test_decode_find_active : decode true 0x2900280000000000 = .ok (.findActive 40) := by decide
theorem test_decode_next_active : decode true 0x2A00000000000000 = .ok (.nextActive 0) := by decide
theorem test_decode_prev_active : decode true 0x2B00280000000000 = .ok (.prevActive 40) := by decide
theorem test_decode_prog_reg_read : decode true 0x4000080000000000 = .ok (.progRegRead 7) := by decide
theorem test_decode_prog_reg_write : decode true 0x4100010000030000 = .ok (.progRegWrite 0 3) := by decide
theorem test_decode_prog_paged_read : decode true 0x420000001D000000 = .ok (.progPagedRead 28) := by decide
theorem test_decode_prog_paged_write : decode true 0x430000001D550000 = .ok (.progPagedWrite 28 0x55) := by decide
theorem test_decode_prog_direct_read : decode true 0x4400000001000000 = .ok (.progDirectRead 0) := by decide
theorem test_decode_prog_direct_write : decode true 0x450000001D220000 = .ok (.progDirectWrite 28 0x22) := by decide
theorem test_decode_prog_bit_write : decode true 0x4600000400000300 = .ok (.progDirectBitWrite 1023 3 false) := by decide
theorem test_decode_prog_bit_verify : decode true 0x470000001D000D00 = .ok (.progDirectBitVerify 28 5 true) := by decide
theorem test_decode_prog_longaddr_read : decode true 0x4800000000000000 = .ok .progLongaddrRead := by decide
theorem test_decode_prog_longaddr_write : decode true 0x4904D20000000000 = .ok (.progLongaddrWrite 1234) := by decide
theorem test_decode_prog_query_bitcap : decode true 0x4A00000000000000 = .ok .progQueryBitcap := by decide
theorem test_decode_prog_terminate : decode true 0x4B00000000000000 = .ok .progTerminate := by decide
theorem test_decode_prog_status : decode true 0x4C00000000000000 = .ok .progStatus := by decide
theorem test_decode_prog_value : decode true 0x4D00000000000000 = .ok .progValue := by decide

/-- V76: the illegal words, in its order. -/
theorem test_decode_illegal :
    decode true 0 = .illegal .opcode ∧ decode true 0x0100030000010001 = .illegal .rsv ∧
    decode true 0x0100000000010000 = .illegal .range ∧ decode true 0x0128000000010000 = .illegal .range ∧
    decode true 0x0200030000200000 = .illegal .range ∧ decode true 0x2800010000000000 = .illegal .unused ∧
    decode true 0x4400000000000000 = .illegal .range ∧ decode true 0x4400000401000000 = .illegal .range ∧
    decode true 0x4000090000000000 = .illegal .range ∧ decode true 0x4600000001001000 = .illegal .range ∧
    decode true 0x1010000000000000 = .illegal .range ∧ decode false 0x0500030000810000 = .illegal .opcode := by decide

/-- 30_encoding R87, R88: the written example and the pseudo-commands. -/
theorem test_assemble :
    assembleText true true "LOCO_SPEED addr=3, speed=0x42" = some 0x0100030000420000 ∧
    assembleText true true "LOCO_SPEED addr=3, speed=rev:66" = some 0x0100030000420000 ∧
    assembleText true true "LOCO_ESTOP addr=3, dir=1" = some 0x0100030000810000 ∧
    assembleText true true "ACC_ON addr=5" = some 0x1000050000000100 := by decide
/-- Log 12: an operand written twice or with a blank inside has no word. -/
theorem test_assemble_refuses :
    assembleText true true "LOCO_STOP addr=3, dir=1, dir=0" = none ∧ assembleText true true "LOCO_STOP addr=3" = none ∧
    assembleText true true "ACC_ON ad dr=5" = none := by decide

/-- 30_encoding R87: a listing line. -/
theorem test_listing :
    (Instr.locoSpeed 3 0x42).listing = "0x0100_0300_0042_0000 LOCO_SPEED addr=3, speed=66" := by decide

/-! ## Small states -/

/-- Small capacities. -/
def tiny : Params :=
  { Params.default with smqSize := 3, hpqSize := 2, lpqSize := 3, rptSize := 2, locoSize := 2 }

/-- The small machine after reset. -/
def s0 : State := State.resetWith tiny

/-- The small machine in `PROG_OKAY`. -/
def s1 : State := { s0 with runMode := .progOkay }

/-- An active entry. -/
def entry (a : LocoAddr) (v : Byte) : LocoEntry := ⟨a, v, .f28, true, 0, 0⟩

/-- Addresses 3 and 40 in the table. -/
def s2 : State := { s0 with loco := [entry 3 0x94, entry 40 0x80] }

/-- A task that steps, at its first sequence step. -/
def stepping (op : TaskOp) : State :=
  { s1 with prog := { Programmer.reset with seqState := .step, seqOp := some op, prBusy := true } }

/-- Some of a next state. -/
def after {α : Type} (r : Result) (f : State → α) : Option α :=
  match r with
  | .next t => some (f t)
  | .fault _ => none
  | .refused _ => none

/-- The response and the bytes waiting in `LPQ`, `HPQ` and `SMQ`. -/
def queues (t : State) : Response × List (List Byte) × List (List Byte) × List (List Byte) :=
  (t.resp, t.lpq.live.map msgBytes, t.hpq.live.map msgBytes, t.smq.live.map msgBytes)

/-! ## One step of each command -/

/-- V80, default format. -/
theorem test_loco_speed_new :
    after (exec (.locoSpeed 3 0x42) s0) queues = some (0x010000, [[0x03, 0x49]], [], []) := by decide
/-- V81, direction changed. -/
theorem test_loco_speed_turn :
    after (exec (.locoSpeed 3 0x14) s2) queues = some (0x020000, [[0x03, 0x44]], [[0x03, 0x44]], []) := by decide
/-- R205 example. -/
theorem test_loco_fgrp1 : after (exec (.locoFgrp1 3 1) s2) queues = some (0x000000, [[0x03, 0x90]], [], []) := by decide
/-- V26. -/
theorem test_loco_fgrp2 : after (exec (.locoFgrp2 3 15) s2) queues = some (0x000000, [[0x03, 0xBF]], [], []) := by decide
/-- V27. -/
theorem test_loco_fgrp3 : after (exec (.locoFgrp3 3 9) s2) queues = some (0x000000, [[0x03, 0xA9]], [], []) := by decide
/-- V28. -/
theorem test_loco_fgrp4 :
    after (exec (.locoFgrp4 3 0x81) s2) queues = some (0x000000, [[0x03, 0xDE, 0x81]], [], []) := by decide
/-- V29. -/
theorem test_loco_fgrp5 :
    after (exec (.locoFgrp5 3 0xFF) s2) queues = some (0x000000, [[0x03, 0xDF, 0xFF]], [], []) := by decide
/-- R205: F28 is bit 7 of group 5. -/
theorem test_loco_fgrp5_table :
    after (exec (.locoFgrp5 3 0x80) s2) (fun t => (locoAt t.loco 0).funcs) = some 0x10000000 := by decide
/-- R206. -/
theorem test_loco_forget :
    after (exec (.locoForget 40) s2) (fun t => (t.resp, (locoAt t.loco 1).addr)) = some (0x400001, 0) := by decide
/-- V85. -/
theorem test_loco_forget_absent : after (exec (.locoForget 5) s0) (fun t => t.resp) = some 0x410000 := by decide
/-- V82. -/
theorem test_bcast_stop_run : after (exec (.bcastStop true) s0) queues = some (0x020000, [], [[0x00, 0x41]], []) := by decide
/-- V82. -/
theorem test_bcast_stop_prog : after (exec (.bcastStop true) s1) queues = some (0x000000, [], [], [[0x00, 0x41]]) := by decide
/-- R208 example. -/
theorem test_acc_basic : after (exec (.accBasic 0 false) s0) queues = some (0x000000, [[0x80, 0xF0]], [], []) := by decide
/-- V36. -/
theorem test_acc_basic_high : after (exec (.accBasic 0xFFD true) s0) queues = some (0x000000, [[0xBF, 0x8D]], [], []) := by
  decide
/-- V41. -/
theorem test_acc_ext :
    after (exec (.accExt 2047 31) s0) queues = some (0x000000, [[0xBF, 0x07, 0x1F]], [], []) := by decide
/-- V44. -/
theorem test_pom_wrbyte :
    after (exec (.pomLocoWrbyte 3 28 0x22) s0) queues = some (0x000000, [[0x03, 0xEC, 0x1C, 0x22]], [], []) := by decide
/-- V47. -/
theorem test_pom_wrbyte_long : after (exec (.pomLocoWrbyte 1234 1023 0xFF) s0) queues =
    some (0x000000, [[0xC4, 0xD2, 0xEF, 0xFF, 0xFF]], [], []) := by decide
/-- V46. -/
theorem test_pom_wrbit :
    after (exec (.pomLocoWrbit 3 28 5 true) s0) queues = some (0x000000, [[0x03, 0xE8, 0x1C, 0xFD]], [], []) := by decide
/-- V45. -/
theorem test_pom_verify :
    after (exec (.pomLocoVerify 3 28 0x22) s0) queues = some (0x000000, [[0x03, 0xE4, 0x1C, 0x22]], [], []) := by decide
/-- V49. -/
theorem test_pom_acc : after (exec (.pomAccWrbyte 511 1023 0) s0) queues =
    some (0x000000, [[0xBF, 0x80, 0xEF, 0xFF, 0x00]], [], []) := by decide
/-- R174: the fixed fields of the open packet. -/
theorem test_fast_clock : ((fastClockMsg tiny 1 2 3 4).type, (fastClockMsg tiny 1 2 3 4).rep) = (.void, 2) := by decide
/-- R203: in a PROG mode the fast clock goes to `SMQ`, one message, no flag. -/
theorem test_fast_clock_prog :
    after (exec (.fastClock 1 2 3 4) s1) (fun t => (t.resp, t.smq.count, t.lpq.count)) = some (0, 1, 0) := by decide
/-- V84. -/
theorem test_query_ready : after (exec .queryReady s0) (fun t => t.resp) = some 0x400001 := by decide
/-- V85. -/
theorem test_find_active : after (exec (.findActive 40) s2) (fun t => t.resp) = some 0x400001 := by decide
/-- V85. -/
theorem test_next_active_wraps : after (exec (.nextActive 40) s2) (fun t => t.resp) = some 0x400003 := by decide
/-- V85. -/
theorem test_next_active : after (exec (.nextActive 3) s2) (fun t => t.resp) = some 0x400028 := by decide
/-- V85. -/
theorem test_prev_active_wraps : after (exec (.prevActive 3) s2) (fun t => t.resp) = some 0x400028 := by decide
/-- R217. -/
theorem test_prev_active_empty : after (exec (.prevActive 0) s0) (fun t => t.resp) = some 0x410000 := by decide

/-- The response and the registers a start writes. -/
def started (t : State) : (Response × SeqState × Option TaskOp) × CvAddr × RegIdx × Byte :=
  ((t.resp, t.prog.seqState, t.prog.seqOp), t.prog.seqCv, t.prog.seqReg, t.prog.seqData)

/-- R261. -/
theorem test_prog_reg_read :
    after (exec (.progRegRead 7) s0) started = some ((0x800000, .enter, some .regRead), 0, 7, 0) := by decide
/-- R261. -/
theorem test_prog_reg_write :
    after (exec (.progRegWrite 0 3) s1) started = some ((0x800000, .step, some .regWrite), 0, 0, 3) := by decide
/-- R261. -/
theorem test_prog_paged_read :
    after (exec (.progPagedRead 28) s0) started = some ((0x800000, .enter, some .pagedRead), 28, 0, 0) := by decide
/-- R261. -/
theorem test_prog_paged_write :
    after (exec (.progPagedWrite 28 0x55) s0) started = some ((0x800000, .enter, some .pagedWrite), 28, 0, 0x55) := by decide
/-- R261. -/
theorem test_prog_direct_read :
    after (exec (.progDirectRead 1023) s0) started = some ((0x800000, .enter, some .directRead), 1023, 0, 0) := by decide
/-- V101. -/
theorem test_prog_direct_write :
    after (exec (.progDirectWrite 28 0x22) s0) started = some ((0x800000, .enter, some .directWrite), 28, 0, 0x22) := by decide
/-- R261. -/
theorem test_prog_bit_write : after (exec (.progDirectBitWrite 28 5 true) s0) (fun t => (t.prog.seqBit, t.prog.seqBitval)) =
    some (5, true) := by decide
/-- R261. -/
theorem test_prog_bit_verify : after (exec (.progDirectBitVerify 28 3 false) s0) (fun t =>
    (t.prog.seqOp, t.prog.seqBit, t.prog.seqBitval)) = some (some .bitVerify, 3, false) := by decide
/-- R284. -/
theorem test_prog_longaddr_read :
    after (exec .progLongaddrRead s0) (fun t => (t.prog.seqOp, t.prog.seqPc)) = some (some .longaddrRead, 0) := by decide
/-- R285, a long address. -/
theorem test_prog_longaddr_write :
    after (exec (.progLongaddrWrite 1234) s0) (fun t => (t.prog.seqAddr, t.prog.seqPc)) = some (1234, 0) := by decide
/-- R285, the longest short address. -/
theorem test_prog_longaddr_write_short :
    after (exec (.progLongaddrWrite 127) s0) (fun t => (t.prog.seqAddr, t.prog.seqPc)) = some (127, 4) := by decide
/-- R286. -/
theorem test_prog_query_bitcap :
    after (exec .progQueryBitcap s0) (fun t => (t.resp, t.prog.seqOp)) = some (0x800000, some .queryBitcap) := by decide
/-- V8, R290. -/
theorem test_prog_busy :
    after (exec (.progDirectWrite 0 3) (stepping .directRead)) (fun t => (t.resp, t.prog.seqOp)) =
      some (0x810000, some .directRead) := by decide
/-- V100. -/
theorem test_prog_terminate :
    after (exec .progTerminate s0) (fun t => (t.resp, t.prog.prResult)) = some (0x40000B, 0x0B) := by decide
/-- R287. -/
theorem test_prog_terminate_running : after (exec .progTerminate (stepping .directRead)) (fun t =>
    (t.resp, t.prog.seqState, t.prog.prBusy)) = some (0x40000A, .exit, true) := by decide
/-- V100. -/
theorem test_prog_status : after (exec .progStatus s0) (fun t => t.resp) = some 0x9000FF := by decide
/-- V100. -/
theorem test_prog_value : after (exec .progValue s0) (fun t => t.resp) = some 0x400000 := by decide

/-! ## One step of the agents -/

/-- V76: an illegal word through a whole `CORE` step from reset. -/
theorem test_step_illegal : after (step (s0.withFetchWord 64 0)) (fun t => t.resp) = some 0xC00000 := by decide
/-- V80, then its dispatch in the same step. -/
theorem test_step_loco_speed : after (step (s0.withFetchWord 64 0x0100030000420000)) (fun t =>
    (t.resp, msgBytes t.mbx, t.mbxCnt, t.mbxSrc)) = some (0x010000, [0x03, 0x49], 1, .lpq) := by decide
/-- V6: the run-mode changes in the first round. -/
theorem test_step_direct_write : after (step (s0.withFetchWord 64 0x450000001D220000)) (fun t =>
    (t.runMode, msgBytes t.mbx, t.mbxCnt)) = some (.progOkay, [0x00, 0x00], 20) := by decide
/-- V88: the first dispatch from reset with nothing queued. -/
theorem test_core_dummy : after (coreStep s0) (fun t => (msgBytes t.mbx, t.mbxSrc)) = some ([0x80, 0xF0], .dummy) := by decide
/-- V70: the first packet, symbol for symbol. -/
theorem test_first_packet : (encTicks 42 s0).track = packetSymbols 14 idleMsg := by decide
/-- V70: the framing written out. -/
theorem test_idle_symbols : (packetSymbols 14 idleMsg).map (fun x => if x = .one then 1 else 0) =
    [1, 1, 1, 1, 1, 1, 1, 1, 1, 1, 1, 1, 1, 1, 0, 1, 1, 1, 1, 1, 1, 1, 1, 0, 0, 0, 0, 0, 0, 0, 0, 0, 0,
     1, 1, 1, 1, 1, 1, 1, 1, 1] := by decide
/-- R362: 5796 microseconds. -/
theorem test_idle_duration : durationUs tiny (packetSymbols 14 idleMsg) = 5796 := by decide
/-- V60, the clamp. -/
theorem test_to_rail : [0, 1, 2, 3, 6, 7, 66, 126, 127].map (toRail · 28) = [0, 1, 2, 2, 2, 3, 16, 29, 29] := by decide
/-- V61 and V62, the ends. -/
theorem test_from_rail : [fromRail 2 28, fromRail 3 28, fromRail 29 28, fromRail 31 28, fromRail 15 14] =
    [2, 7, 123, 123, 119] := by decide
/-- V64. -/
theorem test_key : (keyOfBytes [0x03, 0x41], keyOfBytes [0xC3, 0xE8, 0xDE, 0x00], keyOfBytes [0x03, 0xEC, 0x1C, 0x01]) =
    (.cmd .short 3 .speed28, .cmd .long 1000 .fg4, .raw [0x03, 0xEC, 0x1C, 0x01]) := by decide
/-- V7: eviction of the stalest, lowest index on a tie. -/
theorem test_eviction : locoVictim ([3, 7, 7, 1].map fun r => { entry 10 0 with refresh := r }) = 1 := by decide

/-! ## Witnesses: a concrete state and operands that meet the hypotheses of each statement, clause by clause -/

theorem witness_DecodeEncodeRoundTrip :
    (Instr.locoSpeed 1 0).wellFormed false = true ∧ (Instr.locoFgrp4 10239 0).wellFormed true = true ∧
    (Instr.fastClock 59 23 6 63).wellFormed true = true ∧ (Instr.nextActive 0).wellFormed false = true := by decide

theorem witness_DecodedWordIsEncoded : decode false 0x2A27FF0000000000 = .ok (.nextActive 10239) := by decide

theorem witness_IllegalWordsRule_legal : TableLegal true 0x0127FF0000FF0000 :=
  ⟨.locoSpeed, by decide, by unfold Op.rangeOk addrNat; decide, by simp⟩

theorem witness_IllegalWordsRule_illegal : ¬ TableLegal true 0 := by
  rintro ⟨o, h, -, -⟩
  revert h
  cases o <;> decide

theorem witness_AssembledCommandIsItsWord : (Instr.progRegWrite 7 255).wellFormed false = true := by decide

theorem witness_StepRunsDecodedCommand :
    (nextEvent (s0.withFetchWord 64 0x4D00000000000000)).1 = .coreStep ∧
    (nextEvent (s0.withFetchWord 64 0x4D00000000000000)).2.cmd = some 0x4D00000000000000 ∧
    decode s0.params.extFuncs 0x4D00000000000000 = .ok .progValue ∧
    (s0.withFetchWord 64 0x4D00000000000000).agenda = [.coreStep] := by decide

theorem witness_OtherTransitions : s0.cmd = none ∧ 9 ≤ (9 : BitVec 4).toNat ∧ 9 ≤ (15 : BitVec 4).toNat := by decide

theorem witness_ResetMeetsInvariants : Params.default.valid = true ∧ tiny.valid = true := by decide

/-- The encoder in a state. -/
def inState (st : EncState) : State := { s0 with enc := { Encoder.reset with state := st, cnt := 8 } }

theorem witness_IdleTickStartsPacket : s0.enc.state = .idle ∧ s1.enc.state = .idle := by decide

theorem witness_EncoderArms :
    (inState .preamble).enc.state = .preamble ∧ (inState .byte).enc.state = .byte ∧ (inState .xor).enc.state = .xor ∧
    (inState .endBit).enc.state = .endBit ∧ (inState .cutout1).enc.state = .cutout1 ∧
    (inState .cutout2).enc.state = .cutout2 ∧
    (inState .byteStart).enc.state = .byteStart ∧
      (inState .byteStart).enc.idx.toNat < (inState .byteStart).enc.buf.size.toNat ∧
    (2 : BitVec 3).toNat ≤ ({ Encoder.reset with state := .byteStart, idx := 2 } : Encoder).idx.toNat := by decide

theorem witness_PacketOnTheTrack :
    s0.enc.state = .idle ∧ sizeOk idleMsg = true ∧ 2 ≤ s0.params.preambleRun ∧ s0.params.preambleRun ≤ 256 ∧
    s0.cutoutEn = false ∧ ({ s1 with cutoutEn := true, mbxCnt := 1 } : State).cutoutEn = true ∧
    sizeOk ({ s1 with cutoutEn := true, mbxCnt := 1 } : State).mbx = true ∧ s1.params.preambleProg ≤ 256 := by decide

theorem encoderOk_s0 : EncoderOk s0.enc :=
  ⟨by decide, by decide, by decide, by decide, by decide, by decide, by decide, by decide⟩

theorem witness_StepKeepsEncoderRegisters : ∃ t, EncoderOk s0.enc ∧ sizeOk s0.mbx = true ∧ s0.params.valid = true ∧
    step { s0 with agenda := [.encTick] } = .next t :=
  ⟨_, encoderOk_s0, by decide, by decide, rfl⟩

theorem witness_EncoderIgnoresPolicy :
    SameWire s0.enc s2.enc ∧ s0.mbx.payload = s2.mbx.payload ∧ s0.mbx.size = s2.mbx.size ∧ s0.mbxCnt = s2.mbxCnt ∧
    preambleLen s0.params s0.runMode = preambleLen s2.params s2.runMode ∧ s0.track = s2.track ∧ s0.loco ≠ s2.loco := by
  refine ⟨⟨rfl, rfl, rfl⟩, rfl, rfl, rfl, rfl, rfl, by decide⟩

theorem witness_ReadySignalRule :
    after (step { s0 with mbxCnt := 1, agenda := [.encTick] }) encReady = some true ∧
    encReady { s0 with mbxCnt := 1, agenda := [.encTick] } = false ∧
    after (step { s0 with agenda := [.coreStep] }) encReady = some false ∧ encReady s0 = true := by decide

theorem layersOk_reset : LayersOk Programmer.reset :=
  ⟨by decide, by decide, by decide, by decide, by simp [Programmer.reset]⟩

theorem resultOk_reset : ResultOk Programmer.reset := by unfold ResultOk; decide

theorem sizesOk_s0 : SizesOk s0 :=
  ⟨by decide, by decide, by decide, by decide, by decide⟩

theorem shaped_s0 : Shaped s0 :=
  ⟨by decide, by unfold Ring.Ok; decide, by unfold Ring.Ok; decide, by unfold Ring.Ok; decide, by decide, by decide,
    by decide, by decide⟩

theorem tableOk_s0 : TableOk s0 := by
  have h : ∀ i, i < s0.loco.length → (locoAt s0.loco i).addr = 0 := by decide
  exact ⟨fun i _ hi _ hne _ => absurd (h i hi) hne, by decide, by decide⟩

theorem clockBuilderOk_s0 : ClockBuilderOk s0 := by
  intro w mn h wd r hc
  cases hc

theorem witness_FaultsOnlyFromEnvironment :
    LayersOk s0.prog ∧ SizesOk s0 ∧ ClockBuilderOk s0 ∧
    step { s0 with agenda := [.statusWrite 9] } = .fault (.badRunMode 9) :=
  ⟨layersOk_reset, sizesOk_s0, clockBuilderOk_s0, rfl⟩

theorem witness_MailboxWrittenOnlyWhenFree :
    after (step { s0 with mbxCnt := 2, agenda := [.encTick] }) (fun t => t.mbxCnt) = some 1 ∧
    after (step { s0 with mbxCnt := 2, agenda := [.coreStep] }) (fun t => t.mbxCnt) = some 2 := by decide

theorem witness_CoreLeavesEncoder :
    after (coreStep s0) (fun t => t.runMode) = some .runOkay ∧
    after (coreStep { s0 with cmd := some 0x4500000001000000 }) (fun t => t.runMode) = some .progOkay ∧
    after (coreStep { s1 with prog := { Programmer.reset with seqState := .exit, seqEntered := true, prBusy := true } })
      (fun t => t.runMode) = some .runOkay ∧
    after (coreStep { stepping .directRead with runMode := .progShort }) (fun t => (t.runMode, t.prog.prResult)) =
      some (.progShort, 3) := by decide

theorem witness_CommandFrame :
    taskOf .queryReady = none ∧ groupCommand .queryReady = none ∧ enqueueCommand tiny .queryReady = none ∧
    isProg s1.runMode = true ∧ isProg s0.runMode = false := by decide

theorem witness_LocoGetRule :
    HoldsAt s2.loco 40 1 ∧ (Absent s2.loco 5 ∧ RoomAt s2.loco 0) ∧ (Absent s0.loco 5 ∧ RoomAt s0.loco 0) ∧
    (tiny.locoFormatDb.lookup 3).getD tiny.defaultFormat = .steps28 := by
  unfold RoomAt HoldsAt Absent StalestAt
  decide

theorem witness_LocoSpeedRule :
    GotEntry s2 40 1 (entry 40 0x80) false ∧ GotEntry s0 5 0 ⟨5, 0, .f28, true, 0, 0⟩ true := by
  unfold GotEntry RoomAt HoldsAt Absent StalestAt
  decide

theorem witness_GroupCommandRule :
    groupCommand (.locoFgrp5 40 0x80) = some (40, 5, 0x80) ∧ groupCommand (.locoFgrp1 40 31) = some (40, 1, 31) ∧
    GotEntry s2 40 1 (entry 40 0x80) false ∧
    (∀ k, k < 29 → (0x10000000 : BitVec 29).getLsbD k =
      if 21 ≤ k ∧ k ≤ 28 then (0x80 : Byte).getLsbD (k - 21) else (entry 40 0x80).funcs.getLsbD k) ∧
    (∀ k, k < 29 → (0x1F : BitVec 29).getLsbD k =
      if 0 ≤ k ∧ k ≤ 4 then (31 : Byte).getLsbD (k - 0) else (entry 40 0x80).funcs.getLsbD k) := by
  unfold GotEntry RoomAt HoldsAt Absent StalestAt
  decide

theorem witness_LocoForgetRule : HoldsAt s2.loco 3 0 ∧ Absent s2.loco 5 := by
  unfold HoldsAt Absent
  decide

theorem witness_BroadcastStopRule : isProg s1.runMode = true ∧ isProg s0.runMode = false := by decide

theorem witness_EnqueueCommandsRule :
    enqueueCommand tiny (.accBasic 4095 true) = some (accMsg tiny 4095 true) ∧ isProg s1.runMode = true ∧
    isProg s0.runMode = false := by decide

/-- A full ring of three slots, with a speed message for address 3 and an accessory message. -/
def fullRing : Ring := ⟨[speedMsg tiny 3 0x85 .f28 false, accMsg tiny 5 true, idleMsg], 0, 2⟩

theorem witness_RingIsBoundedFifo :
    fullRing.Ok 3 ∧ fullRing.full = true ∧ s0.lpq.Ok 3 ∧ s0.lpq.full = false ∧ fullRing.empty = false ∧
    (⟨[idleMsg], 0, 0⟩ : Ring).Ok 1 := by
  unfold Ring.Ok
  decide

theorem witness_LowPriorityInsertRule :
    fullRing.Ok 3 ∧ (keyOf (accMsg tiny 5 true)).isRaw = true ∧
    (∀ x ∈ fullRing.live, keyOf x ≠ keyOf (speedMsg tiny 4 0 .f28 false)) ∧
    (keyOf (speedMsg tiny 3 0x86 .f28 false)).isRaw = false ∧
    ∃ x ∈ fullRing.live, keyOf x = keyOf (speedMsg tiny 3 0x86 .f28 false) := by
  unfold Ring.Ok
  decide

/-- Two pending repeats. -/
def pending : List RptEntry := [⟨speedMsg tiny 3 0x85 .f28 false, 2⟩, ⟨accMsg tiny 5 true, 2⟩]

theorem witness_RepeatBufferRule :
    (∃ x, pending[1]? = some x ∧ x.cnt ≠ 0 ∧ keyOf x.msg = keyOf (accMsg tiny 5 true) ∧
      ∀ y ∈ pending.take 1, y.cnt = 0 ∨ keyOf y.msg ≠ keyOf (accMsg tiny 5 true)) ∧
    (∀ y ∈ pending, y.cnt = 0 ∨ keyOf y.msg ≠ keyOf (stopMsg tiny true)) ∧ (stopMsg tiny true).rep ≠ 0 ∧
    (resetMsg 0).rep = 0 ∧ (∀ y ∈ pending, y.cnt ≠ 0) ∧ (∀ y ∈ pending, (2 : Byte).toNat ≤ y.cnt.toNat) ∧
    (∀ y ∈ pending, y.cnt.toNat ≤ (2 : Byte).toNat) ∧ (∃ x, s0.rpt[0]? = some x ∧ x.cnt = 0) ∧
    ∀ y ∈ s0.rpt, y.cnt = 0 := by
  refine ⟨⟨⟨accMsg tiny 5 true, 2⟩, rfl, by decide, rfl, by decide⟩, by decide, by decide, by decide, by decide, by decide,
    by decide, ⟨_, rfl, by decide⟩, by decide⟩

theorem witness_KeysOfBuiltMessages :
    tiny.valid = true ∧ LocoAddr.legal 1 = true ∧ LocoAddr.legal 127 = true ∧ LocoAddr.legal 128 = true ∧
    LocoAddr.legal 10239 = true := by decide

theorem witness_StepKeepsKeysOnce :
    ∃ t, Shaped s0 ∧ step { s0 with agenda := [.coreStep] } = .next t ∧ KeysOnce s0.lpq.live ∧ RptKeysOnce s0.rpt := by
  refine ⟨_, shaped_s0, rfl, ?_, ?_⟩
  · intro i j x y hx
    have : s0.lpq.live = [] := by decide
    simp [this] at hx
  · intro i j x y hx _ hc
    have : ∀ e ∈ s0.rpt, e.cnt = 0 := by decide
    exact absurd (this x (List.mem_of_getElem? hx)) hc

theorem witness_SelectionQueues :
    s0.mbxCnt = 0 ∧ isProg s1.runMode = true ∧ s1.smq.head = none ∧
    ({ s1 with smq := fullRing } : State).smq.head = some (speedMsg tiny 3 0x85 .f28 false) ∧
    sizeOk (speedMsg tiny 3 0x85 .f28 false) = true ∧ Differs s0 (speedMsg tiny 3 0x85 .f28 false) ∧
    Withheld s0 s0.hpq ∧ isProg s0.runMode = false := by
  have h : s0.hpq.head = none := by decide
  refine ⟨by decide, by decide, by decide, by decide, by decide, .inl (by decide), ?_, by decide⟩
  intro m hm
  simp [h] at hm

theorem witness_SelectionRest :
    s0.mbxCnt = 0 ∧ isProg s0.runMode = false ∧ Withheld s0 s0.hpq ∧ Withheld s0 s0.lpq ∧ (∀ y ∈ s0.rpt, y.cnt = 0) ∧
    (∃ x, pending[0]? = some x ∧ x.cnt ≠ 0 ∧ sizeOk x.msg = true ∧ Differs s0 x.msg) ∧
    ∃ c src t, refreshNext s0 = (c, src, t) ∧ Differs s0 c := by
  have h : s0.hpq.head = none := by decide
  have h' : s0.lpq.head = none := by decide
  refine ⟨by decide, by decide, ?_, ?_, by decide, ⟨_, rfl, by decide, by decide, .inl (by decide)⟩,
    ⟨_, _, _, rfl, .inl (by decide)⟩⟩
  · intro m hm
    simp [h] at hm
  · intro m hm
    simp [h'] at hm

/-- The `differs` premise can fail: the idle message was just sent. -/
theorem witness_SelectionRest_withheld :
    ¬ Differs { s0 with last := dummyMsg tiny, lastValid := true } (refreshNext s0).1 := by
  have h : (refreshNext s0).1 = dummyMsg tiny := by decide
  rw [h]
  rintro (h | h)
  · cases h
  · exact h ⟨rfl, rfl⟩

theorem witness_SweepAdvanceRule :
    (⟨0, 0, s2.loco⟩ : Sweep).cursor + 1 < s2.loco.length ∧ (⟨1, 9, s2.loco⟩ : Sweep).cursor + 1 = s2.loco.length ∧
    (⟨1, 8, s2.loco⟩ : Sweep).level + 1 < 10 ∧ 10 ≤ (⟨1, 9, s2.loco⟩ : Sweep).level + 1 := by decide

theorem witness_RefreshNextRule : (refreshNext s2).2.1 = .refresh ∧ (refreshNext s0).2.1 = .dummy := by decide

theorem witness_RefreshFindsActive :
    Shaped s0 ∧ (∃ e ∈ s2.loco, e.addr ≠ 0 ∧ e.active = true) ∧ ∀ e ∈ s0.loco, e.addr = 0 ∨ e.active = false :=
  ⟨shaped_s0, by decide, by decide⟩

theorem witness_MessageBytes :
    tiny.longAddrMin ≤ 128 ∧ (10239 : LocoAddr).toNat ≤ 10239 ∧ (0 : LocoAddr).toNat ≤ 10239 := by decide

theorem witness_SpeedConversionInverse : 1 ≤ 14 ∧ 28 ≤ 125 ∧ toRail 66 28 = toRail 65 28 := by decide

theorem witness_ActiveQueriesRule :
    s2.loco[1]? = some (entry 40 0x80) ∧ ActiveAddr s2.loco 3 ∧ ActiveAddr s2.loco 40 ∧ ¬ ActiveAddr s2.loco 5 ∧
    ∀ x, ¬ ActiveAddr s0.loco x := by
  refine ⟨rfl, ⟨entry 3 0x94, by decide, by decide, by decide, by decide⟩,
    ⟨entry 40 0x80, by decide, by decide, by decide, by decide⟩, ?_, ?_⟩
  · rintro ⟨e, he, ha, -, -⟩
    revert ha
    revert e
    decide
  · rintro x ⟨e, he, -, ha, -⟩
    revert ha
    revert e
    decide

theorem witness_StartRule :
    taskOf (.progLongaddrWrite 127) = some .longaddrWrite ∧ taskOf (.progRegRead 7) = some .regRead ∧
    s0.prog.prBusy = false ∧ (stepping .directRead).prog.prBusy = true := by decide

theorem witness_TerminateRule :
    s0.prog.prBusy = false ∧ (stepping .directRead).prog.prBusy = true ∧ (stepping .directRead).prog.seqState ≠ .enter ∧
    after (exec .progLongaddrRead s0) (fun t => (t.prog.prBusy, t.prog.seqState)) = some (true, .enter) := by decide

theorem witness_SupervisionRule :
    (stepping .directRead).prog.seqState = .step ∧ (stepping .directRead).runMode = .progOkay ∧
    ({ stepping .directRead with runMode := .progOff } : State).runMode ≠ .progOkay ∧
    ({ s1 with prog := { Programmer.reset with seqState := .enter } } : State).prog.seqState = .enter ∧
    s1.runMode = .progOkay ∧ isProg s0.runMode = false ∧ s0.runMode ≠ .runShort := by decide

theorem witness_EntryAndExit :
    isProg s0.runMode = false ∧ s0.runMode ≠ .runShort ∧ s0.mbxCnt = 0 ∧
    (s0.smq.push (resetMsg (BitVec.ofNat 8 (s0.params.progEntryResets - 1)))).isSome = true ∧
    s1.smq.empty = true ∧ ¬ (s1.mbxSrc = .smq ∧ s1.mbxCnt ≠ 0) ∧
    ¬ (({ s1 with smq := fullRing } : State).smq.empty = true) := by decide

theorem witness_Stepping : Stepping (stepping .directRead) ∧ SeqTurn (stepping .directRead) := by
  unfold SeqTurn Stepping
  decide

theorem witness_InnerLoopRule :
    ((stepping .directRead).smq.push (resetMsg 2)).isSome = true ∧ fullRing.full = true ∧
    Stepping { stepping .directRead with prog := { (stepping .directRead).prog with innerState := .wait } } := by
  unfold Stepping
  decide

/-- The byte layer's turn, for an operation in a phase, with the inner layer in a state. -/
def byteWork (op : ByteOp) (ph : BytePhase) (i : InnerState) (n : BitVec 9) : State :=
  { stepping .directRead with prog := { (stepping .directRead).prog with
      byteBusy := true, byteOp := op, bytePh := ph, innerState := i, byteI := n } }

theorem witness_CapabilityProbeRule :
    ByteTurn (byteWork .readDirect .cap .idle 0) ∧ ByteTurn (byteWork .capProbe .cap .done 1) ∧
    (byteWork .readDirect .cap .idle 0).prog.bitcap = .unknown ∧
    ((5 : Millis) - 0).toNat < tiny.cacheExpiryMs ∧ ¬ ((500 : Millis) - 0).toNat < tiny.cacheExpiryMs := by
  unfold ByteTurn Stepping
  decide

theorem witness_SinglePacketOperations :
    ByteTurn (byteWork .writeByte .cap .idle 0) ∧ ByteTurn (byteWork .verifyBit .cap .done 0) ∧
    ByteTurn (byteWork .writeBit .cap .idle 0) := by
  unfold ByteTurn Stepping
  decide

theorem witness_BitProbeReadsByte :
    (byteWork .readDirect .bits .idle 0).prog.byteAcc = 0 ∧ (byteWork .readDirect .bits .idle 0).prog.byteI = 0 ∧
    (byteWork .readDirect .bits .idle 0).prog.innerState = .idle := by decide

theorem witness_ScanReadsFirstAck :
    (byteWork .scanRead .scan .idle 0).prog.bytePh = .scan ∧ (byteWork .scanRead .scan .idle 0).prog.byteI = 0 ∧
    (byteWork .scanRead .scan .idle 0).prog.innerState = .idle := by decide

/-- A sequence step with a byte result waiting. -/
def withResult (op : TaskOp) (pc : BitVec 3) (r : ByteRes) : State :=
  { stepping op with prog := { (stepping op).prog with seqPc := pc, byteDone := true, byteRes := r } }

theorem witness_ShortTasks :
    SeqTurn (withResult .pagedRead 1 .noDec) ∧ (withResult .pagedRead 1 .noDec).prog.byteDone = true ∧
    SeqTurn (stepping .pagedRead) ∧ (stepping .pagedRead).prog.byteDone = false ∧
    (stepping .pagedRead).prog.pageValid = false := by
  unfold SeqTurn Stepping
  decide

theorem witness_LongAddressTasks :
    SeqTurn (withResult .longaddrRead 3 .ok) ∧ SeqTurn (withResult .longaddrWrite 5 .bitErr) ∧
    SeqTurn (stepping .longaddrWrite) := by
  unfold SeqTurn Stepping
  decide

theorem witness_StepKeepsLayers :
    ∃ t, LayersOk s0.prog ∧ ResultOk s0.prog ∧ step (s0.withFetchWord 64 0x4800000000000000) = .next t ∧
      t.prog.prBusy = true :=
  ⟨_, layersOk_reset, resultOk_reset, rfl, by decide⟩

theorem witness_TaskCompletion :
    LayersOk (stepping .directRead).prog ∧ ResultOk (stepping .directRead).prog ∧
    after (step { stepping .directRead with runMode := .progOff, agenda := [.coreStep] }) (fun t =>
      (t.prog.prBusy, t.prog.prResult)) = some (false, 5) :=
  ⟨⟨by decide, by decide, by decide, by decide, fun _ => ⟨.directRead, by decide⟩⟩, by unfold ResultOk; decide, by decide⟩

theorem witness_StepKeepsStorage :
    ∃ t, Shaped s0 ∧ TableOk s0 ∧ step (s0.withFetchWord 64 0x0100030000420000) = .next t ∧ t.loco ≠ s0.loco :=
  ⟨_, shaped_s0, tableOk_s0, rfl, by decide⟩

theorem witness_StepKeepsSizes :
    ∃ t, SizesOk s0 ∧ ClockBuilderOk s0 ∧ step { s0 with agenda := [.coreStep] } = .next t :=
  ⟨_, sizesOk_s0, clockBuilderOk_s0, rfl⟩

theorem witness_StatusAndValueRule :
    ∃ t, LayersOk s0.prog ∧ s0.prog.prBusy = false ∧ s0.cmd = none ∧
      step { s0 with agenda := [.coreStep] } = .next t ∧ t.prog.prResult = 0xFF :=
  ⟨_, layersOk_reset, by decide, by decide, rfl, by decide⟩

theorem witness_AckMajority : Params.default.valid = true ∧ Params.default.ackSamples = 16 ∧
    (ackPoll { s0 with ackIn := List.replicate 12 true ++ List.replicate 4 false }).1 = true ∧
    (ackPoll { s0 with ackIn := List.replicate 11 true ++ List.replicate 5 false }).1 = false := by decide

theorem witness_TaskCompletion_start :
    ∃ t, s0.prog.prBusy = false ∧ step (s0.withFetchWord 64 0x4C00000000000000) = .next t ∧ t.prog.prBusy = false ∧
    after (step (s0.withFetchWord 64 0x4A00000000000000)) (fun t => t.prog.prBusy) = some true :=
  ⟨_, by decide, rfl, by decide, by decide⟩

end Sys2Proof.Tests
end

section
/-! SUPPORT. The decoder answers well-formed commands only (30_encoding R83, R84): the locomotive commands of a decoded
word have an address other than 0. -/

namespace Sys2Proof

/-! ## The decoder answers well-formed commands (30_encoding R83, R84) -/

theorem legal_of_locoAddrOf {x : BitVec 16} {a : LocoAddr} (h : locoAddrOf x = some a) : LocoAddr.legal a = true := by
  unfold locoAddrOf at h
  split at h <;> cases h
  simp [LocoAddr.legal]
  omega

theorem le_of_locoAddrOrZeroOf {x : BitVec 16} {a : LocoAddr} (h : locoAddrOrZeroOf x = some a) :
    a.toNat ≤ 10239 := by
  unfold locoAddrOrZeroOf at h
  split at h <;> cases h
  simp
  omega

theorem wellFormed_of_fastClockOf {ext : Bool} {f : CmdFields} {i : Instr} (h : fastClockOf f = some i) :
    i.wellFormed ext = true := by
  unfold fastClockOf at h
  split at h <;> cases h
  simp [Instr.wellFormed] at *
  omega

theorem wellFormed_of_operands {ext : Bool} {o : Op} {f : CmdFields} {i : Instr}
    (hext : o.needsExt = true → ext = true) (h : o.operands f = some i) : i.wellFormed ext = true := by
  cases o <;> simp only [Op.operands, Option.bind_eq_bind, Option.bind_eq_some_iff, Option.pure_def,
    Option.some.injEq] at h
  case fastClock => exact wellFormed_of_fastClockOf h
  case locoFgrp4 | locoFgrp5 =>
    obtain ⟨a, ha, rfl⟩ := h
    simp [Instr.wellFormed, legal_of_locoAddrOf ha, hext rfl]
  case nextActive | prevActive =>
    obtain ⟨a, ha, rfl⟩ := h
    simp [Instr.wellFormed, le_of_locoAddrOrZeroOf ha]
  case locoSpeed | locoForget | findActive | progLongaddrWrite =>
    obtain ⟨a, ha, rfl⟩ := h
    exact legal_of_locoAddrOf ha
  case locoFgrp1 | locoFgrp2 | locoFgrp3 | pomLocoWrbyte | pomLocoVerify =>
    obtain ⟨a, ha, _, _, rfl⟩ := h
    exact legal_of_locoAddrOf ha
  case pomLocoWrbit =>
    obtain ⟨_, _, a, ha, _, _, rfl⟩ := h
    exact legal_of_locoAddrOf ha
  case bcastStop | progRegRead | progRegWrite | progPagedRead | progPagedWrite | progDirectRead | progDirectWrite =>
    obtain ⟨_, _, rfl⟩ := h
    rfl
  case accBasic | accExt | pomAccWrbyte | progDirectBitWrite | progDirectBitVerify =>
    obtain ⟨_, _, _, _, rfl⟩ := h
    rfl
  all_goals
    cases h
    rfl

/-- A word spells a command exactly through its opcode and operands. -/
theorem decode_eq_ok {ext : Bool} {w : CmdWord} {i : Instr} (h : decode ext w = .ok i) :
    ∃ o : Op, Op.ofCode (fieldsOf w).op = some o ∧ (o.needsExt = true → ext = true) ∧ (fieldsOf w).rsv = 0 ∧
      o.unusedZero (fieldsOf w) = true ∧ o.operands (fieldsOf w) = some i := by
  simp only [decode, decodeFields] at h
  split at h
  · cases h
  next o ho =>
    refine ⟨o, ho, ?_⟩
    split at h
    · cases h
    split at h
    · cases h
    split at h
    · cases h
    split at h
    · cases h
    cases h
    simp_all

theorem wellFormed_of_decode {ext : Bool} {w : CmdWord} {i : Instr} (h : decode ext w = .ok i) :
    i.wellFormed ext = true := by
  obtain ⟨o, -, hext, -, -, hi⟩ := decode_eq_ok h
  exact wellFormed_of_operands hext hi

end Sys2Proof
end

section
/-! SUPPORT. Sizes of the built messages (41_builders R160), and the programmer's writes: no command and no layer of the
programmer puts a packet of an illegal size into `INNER_PKT` or
touches `PRIOR_MODE`, but for the entry into programming. -/

namespace Sys2Proof.Machine

/-! ## Sizes of the built messages (41_builders R160) -/

theorem sizeOk_mkMsg {l : List Byte} (rep : Byte) (type : MsgType) (h2 : 2 ≤ l.length) (h5 : l.length ≤ 5) :
    sizeOk (mkMsg rep type l) = true := by
  have hn : l.length % 8 = l.length := by omega
  simp [sizeOk, mkMsg, sizeMin, sizeMax, hn, h2, h5]

theorem addrBytes_length (p : Params) (a : LocoAddr) :
    1 ≤ (addrBytes p a).length ∧ (addrBytes p a).length ≤ 2 := by
  unfold addrBytes
  split <;> simp

theorem sizeOk_locoMsg {l : List Byte} (p : Params) (a : LocoAddr) (rep : Byte) (type : MsgType)
    (h1 : 1 ≤ l.length) (h3 : l.length ≤ 3) : sizeOk (mkMsg rep type (addrBytes p a ++ l)) = true := by
  have ha := addrBytes_length p a
  apply sizeOk_mkMsg <;> simp only [List.length_append] <;> omega

@[simp] theorem sizeOk_idleMsg : sizeOk idleMsg = true := by decide

@[simp] theorem sizeOk_resetMsg (n : Byte) : sizeOk (resetMsg n) = true :=
  sizeOk_mkMsg _ _ (by simp) (by simp)

@[simp] theorem sizeOk_resetTimes (n : Nat) : sizeOk (resetTimes n) = true := sizeOk_resetMsg _

@[simp] theorem sizeOk_speedMsg (p : Params) (a : LocoAddr) (v : Byte) (fmt : Format) (f0 : Bool) :
    sizeOk (speedMsg p a v fmt f0) = true := by
  cases fmt <;> exact sizeOk_locoMsg _ _ _ _ (by simp) (by simp)

theorem groupBytes_length (g : Nat) (funcs : BitVec 29) :
    1 ≤ (groupBytes g funcs).length ∧ (groupBytes g funcs).length ≤ 2 := by
  unfold groupBytes
  split <;> simp

@[simp] theorem sizeOk_groupMsg (p : Params) (a : LocoAddr) (g : Nat) (funcs : BitVec 29) :
    sizeOk (groupMsg p a g funcs) = true := by
  have hg := groupBytes_length g funcs
  exact sizeOk_locoMsg _ _ _ _ hg.1 (by omega)

@[simp] theorem sizeOk_stopMsg (p : Params) (e : Bool) : sizeOk (stopMsg p e) = true :=
  sizeOk_mkMsg _ _ (by simp) (by simp)

/-- Every enqueued message but the fast clock's has a legal size whatever the operands. -/
theorem sizeOk_enqueueCommand {p : Params} {i : Instr} {m : Message} (h : enqueueCommand p i = some m)
    (hc : ∀ mn h wd r, i = .fastClock mn h wd r → sizeOk (fastClockMsg p mn h wd r) = true) : sizeOk m = true := by
  cases i <;> cases h
  case accBasic | accExt | pomAccWrbyte => exact sizeOk_mkMsg _ _ (by simp) (by simp)
  case pomLocoWrbyte | pomLocoWrbit | pomLocoVerify => exact sizeOk_locoMsg _ _ _ _ (by simp) (by simp)
  case fastClock => exact hc _ _ _ _ rfl

/-! ### Service-mode packets -/

@[simp] theorem sizeOk_smVerifyBit (c : CvAddr) (b : BitPos) (v : Bool) : sizeOk (smVerifyBit c b v) = true :=
  sizeOk_mkMsg _ _ (by simp) (by simp)

@[simp] theorem sizeOk_smWriteBit (c : CvAddr) (b : BitPos) (v : Bool) : sizeOk (smWriteBit c b v) = true :=
  sizeOk_mkMsg _ _ (by simp) (by simp)

@[simp] theorem sizeOk_smVerifyByte (c : CvAddr) (d : Byte) : sizeOk (smVerifyByte c d) = true :=
  sizeOk_mkMsg _ _ (by simp) (by simp)

@[simp] theorem sizeOk_pktVerify (mode : ByteMode) (c : CvAddr) (d : Byte) : sizeOk (pktVerify mode c d) = true := by
  cases mode <;> exact sizeOk_mkMsg _ _ (by simp) (by simp)

@[simp] theorem sizeOk_pktWrite (mode : ByteMode) (c : CvAddr) (d : Byte) : sizeOk (pktWrite mode c d) = true := by
  cases mode <;> exact sizeOk_mkMsg _ _ (by simp) (by simp)

/-! ## The programmer's writes -/

/-- A write of the programmer's registers alone that leaves `PRIOR_MODE` and puts no packet of an illegal size into
`INNER_PKT`: what every command and every layer does to the programmer, but for the entry into programming. -/
structure ProgWrite (s t : State) : Prop where
  only : OnlyProg s t
  prior : t.prog.priorMode = s.prog.priorMode
  pkt : sizeOk s.prog.innerPkt = true → sizeOk t.prog.innerPkt = true

theorem progWrite_refl (s : State) : ProgWrite s s := ⟨rfl, rfl, id⟩

theorem ProgWrite.trans {s t u : State} (h1 : ProgWrite s t) (h2 : ProgWrite t u) : ProgWrite s u :=
  ⟨h1.only.trans h2.only, h2.prior.trans h1.prior, h2.pkt ∘ h1.pkt⟩

theorem progWrite_setProg {f : Programmer → Programmer} {s : State} (hp : (f s.prog).priorMode = s.prog.priorMode)
    (hi : (f s.prog).innerPkt = s.prog.innerPkt) : ProgWrite s (setProg f s) :=
  ⟨rfl, hp, fun h => by simpa [hi] using h⟩

/-- A write that first sets registers other than the two. -/
theorem ProgWrite.of_setProg {f : Programmer → Programmer} {s t : State} (h : ProgWrite (setProg f s) t)
    (hp : (f s.prog).priorMode = s.prog.priorMode) (hi : (f s.prog).innerPkt = s.prog.innerPkt) : ProgWrite s t :=
  (progWrite_setProg hp hi).trans h

theorem progWrite_innerStart {m : Message} (h : sizeOk m = true) (wr : Bool) (s : State) :
    ProgWrite s (innerStart m wr s) :=
  ⟨rfl, rfl, fun _ => h⟩

theorem progWrite_finish (code : Byte) (s : State) : ProgWrite s (finish code s) :=
  progWrite_setProg rfl rfl

theorem progWrite_byteStart (op : ByteOp) (mode : ByteMode) (c : CvAddr) (d : Byte) (b : BitPos) (v : Bool)
    (s : State) : ProgWrite s (byteStart op mode c d b v s) :=
  progWrite_setProg rfl rfl

theorem progWrite_byteFinish (r : ByteRes) (s : State) : ProgWrite s (byteFinish r s) :=
  progWrite_setProg rfl rfl

theorem progWrite_toPc (pc : BitVec 3) (s : State) : ProgWrite s (toPc pc s) :=
  progWrite_setProg rfl rfl

theorem progWrite_setValue (v : BitVec 16) (s : State) : ProgWrite s (setValue v s) :=
  progWrite_setProg rfl rfl

/-! ### The byte layer (43_programmer R273 to R279) -/

theorem progWrite_capDecided (yes : Bool) (s : State) : ProgWrite s (capDecided yes s) := by
  unfold capDecided
  split
  · exact progWrite_byteFinish _ s
  · exact progWrite_setProg rfl rfl

theorem progWrite_phaseIssue (s : State) : ProgWrite s (phaseIssue s) := by
  unfold phaseIssue
  split
  · split
    · exact progWrite_capDecided _ s
    · exact progWrite_innerStart (by simp) _ s
  · split <;> exact progWrite_innerStart (by simp) _ s
  · exact progWrite_innerStart (by simp) _ s

theorem progWrite_byteIssue (s : State) : ProgWrite s (byteIssue s) := by
  unfold byteIssue
  cases s.prog.byteOp
  case writeByte | writeBit | verifyBit => exact progWrite_innerStart (by simp) _ s
  case scanRead | readDirect | capProbe => exact progWrite_phaseIssue s

theorem progWrite_capResult (a : Bool) (s : State) : ProgWrite s (capResult a s) := by
  unfold capResult
  dsimp only
  split
  · exact progWrite_setProg rfl rfl
  · exact (progWrite_capDecided _ _).of_setProg rfl rfl

theorem progWrite_bitsResult (a : Bool) (s : State) : ProgWrite s (bitsResult a s) := by
  unfold bitsResult
  split
  · exact progWrite_setProg rfl rfl
  · split
    · exact (progWrite_byteFinish _ _).of_setProg rfl rfl
    · exact progWrite_byteFinish _ s

theorem progWrite_scanResult (a : Bool) (s : State) : ProgWrite s (scanResult a s) := by
  unfold scanResult
  split
  · exact (progWrite_byteFinish _ _).of_setProg rfl rfl
  · split
    · exact progWrite_byteFinish _ s
    · exact progWrite_setProg rfl rfl

theorem progWrite_phaseResult (a : Bool) (s : State) : ProgWrite s (phaseResult a s) := by
  unfold phaseResult
  split
  · exact progWrite_capResult a s
  · exact progWrite_bitsResult a s
  · exact progWrite_scanResult a s

theorem progWrite_byteResult (a : Bool) (s : State) : ProgWrite s (byteResult a s) := by
  unfold byteResult
  cases s.prog.byteOp
  case writeByte | writeBit | verifyBit => exact progWrite_byteFinish _ s
  case scanRead | readDirect | capProbe => exact progWrite_phaseResult a s

theorem progWrite_byteStep (s : State) : ProgWrite s (byteStep s) := by
  unfold byteStep
  split
  · exact (progWrite_byteResult _ _).of_setProg rfl rfl
  · exact progWrite_byteIssue s

/-! ### The sequence layer (43_programmer R280 to R286) -/

/-- The outcome, where it is a next state, is a write of the programmer's registers alone. -/
def ProgAnswer (s : State) (o : Result) : Prop := ∀ t, o = .next t → ProgWrite s t

theorem progAnswer_next {s t : State} (h : ProgWrite s t) : ProgAnswer s (.next t) := by
  rintro _ ⟨⟩
  exact h

theorem progAnswer_unlisted (s u : State) : ProgAnswer s (unlisted u) := by
  rintro _ ⟨⟩

theorem progAnswer_ite {s : State} {c : Prop} [Decidable c] {a b : Result} (ha : ProgAnswer s a) (hb : ProgAnswer s b) :
    ProgAnswer s (if c then a else b) := by
  split
  · exact ha
  · exact hb

theorem progWrite_pagedIssue0 (s : State) : ProgWrite s (pagedIssue0 s) := by
  unfold pagedIssue0
  split
  · exact progWrite_toPc 1 s
  · exact progWrite_byteStart _ _ _ _ _ _ s

theorem progWrite_pagedResult0 (r : ByteRes) (s : State) : ProgWrite s (pagedResult0 r s) := by
  unfold pagedResult0
  split
  · exact (progWrite_toPc _ _).of_setProg rfl rfl
  · exact (progWrite_finish _ _).of_setProg rfl rfl

theorem progWrite_readResult (r : ByteRes) (v : Byte) (s : State) : ProgWrite s (readResult r v s) := by
  unfold readResult
  split
  · exact (progWrite_setValue _ s).trans (progWrite_finish _ _)
  · exact progWrite_finish _ s

theorem progWrite_writeResult (r : ByteRes) (s : State) : ProgWrite s (writeResult r s) := by
  unfold writeResult
  split <;> exact progWrite_finish _ s

theorem progAnswer_seqIssue (s : State) : ProgAnswer s (seqIssue s) := by
  have starts {op mode c d b v} : ProgAnswer s (.next (byteStart op mode c d b v s)) :=
    progAnswer_next (progWrite_byteStart op mode c d b v s)
  have none := progAnswer_unlisted s s
  unfold seqIssue
  dsimp only
  rcases s.prog.seqOp with _ | op
  · exact none
  cases op
  case regWrite =>
    refine progAnswer_ite (progAnswer_next ?_) none
    exact (progWrite_byteStart _ _ _ _ _ _ _).of_setProg rfl rfl
  case pagedRead | pagedWrite =>
    exact progAnswer_ite (progAnswer_next (progWrite_pagedIssue0 s)) (progAnswer_ite starts none)
  case regRead | directRead | directWrite | bitWrite | bitVerify | queryBitcap => exact progAnswer_ite starts none
  case longaddrRead =>
    exact progAnswer_ite starts (progAnswer_ite starts (progAnswer_ite starts
      (progAnswer_ite starts none)))
  case longaddrWrite =>
    exact progAnswer_ite starts (progAnswer_ite starts (progAnswer_ite starts
      (progAnswer_ite starts (progAnswer_ite starts none))))

theorem progAnswer_longaddrReadOk (v : Byte) (s : State) : ProgAnswer s (longaddrReadOk v s) := by
  unfold longaddrReadOk
  refine progAnswer_ite (progAnswer_next ?_) (progAnswer_ite (progAnswer_next ?_) (progAnswer_ite (progAnswer_next ?_)
    (progAnswer_ite (progAnswer_next ?_) (progAnswer_unlisted s s))))
  · exact (progWrite_toPc _ _).of_setProg rfl rfl
  · exact (progWrite_toPc _ _).of_setProg rfl rfl
  · exact (progWrite_setValue _ s).trans (progWrite_finish _ _)
  · exact (progWrite_setValue _ s).trans (progWrite_finish _ _)

theorem progAnswer_longaddrWriteOk (s : State) : ProgAnswer s (longaddrWriteOk s) := by
  have goTo (pc : BitVec 3) : ProgAnswer s (.next (toPc pc s)) := progAnswer_next (progWrite_toPc pc s)
  have done : ProgAnswer s (.next (finish resSuccess s)) := progAnswer_next (progWrite_finish _ s)
  unfold longaddrWriteOk
  exact progAnswer_ite (goTo 1) (progAnswer_ite (goTo 2) (progAnswer_ite done (progAnswer_ite (goTo 5)
    (progAnswer_ite done (progAnswer_unlisted s s)))))

theorem progAnswer_seqResult (r : ByteRes) (v : Byte) (s : State) : ProgAnswer s (seqResult r v s) := by
  have none := progAnswer_unlisted s s
  have ends (code : Byte) : ProgAnswer s (.next (finish code s)) := progAnswer_next (progWrite_finish code s)
  have reads : ProgAnswer s (.next (readResult r v s)) := progAnswer_next (progWrite_readResult r v s)
  have writes : ProgAnswer s (.next (writeResult r s)) := progAnswer_next (progWrite_writeResult r s)
  have pages : ProgAnswer s (.next (pagedResult0 r s)) := progAnswer_next (progWrite_pagedResult0 r s)
  unfold seqResult
  dsimp only
  rcases s.prog.seqOp with _ | op
  · exact none
  cases op
  case regRead | directRead => exact progAnswer_ite reads none
  case regWrite | directWrite => exact progAnswer_ite writes none
  case pagedRead => exact progAnswer_ite pages (progAnswer_ite reads none)
  case pagedWrite => exact progAnswer_ite pages (progAnswer_ite writes none)
  case bitWrite | queryBitcap => exact progAnswer_ite (ends _) none
  case bitVerify =>
    refine progAnswer_ite (progAnswer_next ?_) none
    split <;> exact (progWrite_setValue _ s).trans (progWrite_finish _ _)
  case longaddrRead => exact progAnswer_ite (progAnswer_longaddrReadOk v s) (progAnswer_ite (ends _) none)
  case longaddrWrite => exact progAnswer_ite (progAnswer_longaddrWriteOk s) (progAnswer_ite (ends _) none)

theorem progAnswer_seqStep (s : State) : ProgAnswer s (seqStep s) := by
  unfold seqStep
  split
  · intro t ht
    exact (progAnswer_seqResult _ _ _ t ht).of_setProg rfl rfl
  · exact progAnswer_seqIssue s

theorem progWrite_modeCheck (s : State) : ProgWrite s (modeCheck s) := by
  unfold modeCheck
  split
  · exact progWrite_finish _ s
  · split
    · exact progWrite_finish _ s
    · split
      · exact progWrite_finish _ s
      · exact progWrite_refl s

end Sys2Proof.Machine
end

section
/-! SUPPORT. The writes of a `CORE` step: the kinds of write, what each keeps (the storage's shape, the locomotive
table, the message sizes, everything outside their reach), and that every command is a chain of them. -/

namespace Sys2Proof.Machine

/-! ## The writes of a `CORE` step -/

/-- A message of a legal size, in a state where the waiting messages have one and the premise `ok` on the OPEN builder
holds. -/
def Legal (ok : Prop) (s : State) (m : Message) : Prop := ok → SizesOk s → sizeOk m = true

/-- A write of one queue. -/
inductive RingWrite (legal : Message → Prop) (q : Ring) : Ring → Prop where
  | push (m : Message) (q' : Ring) (hm : legal m) (h : q.push m = some q') : RingWrite legal q q'
  | insert (m : Message) (q' : Ring) (hm : legal m) (h : lpInsertRing q m = some q') : RingWrite legal q q'
  | pop (m : Message) (h : q.head = some m) : RingWrite legal q q.pop
  | flush : RingWrite legal q { q with rd := q.wr }

/-- A write of the repeat buffer. -/
inductive RptWrite (legal : Message → Prop) (l : List RptEntry) : List RptEntry → Prop where
  | put (m : Message) (hm : legal m) : RptWrite legal l (rptPut m l)
  | clear (k : Key) : RptWrite legal l (rptClear k l)
  | count (j : Nat) (e : RptEntry) (h : l[j]? = some e) (hc : e.cnt ≠ 0) :
      RptWrite legal l (l.set j { e with cnt := e.cnt - 1 })

/-- Entry `e` may be written to slot `i`: it is fresh, active exactly if it holds an address, and its address is the one
the slot had or one no slot holds. -/
structure EntryFits (l : List LocoEntry) (i : Nat) (e : LocoEntry) : Prop where
  fresh : e.refresh = 0
  active : e.active = true ↔ e.addr ≠ 0
  once : e.addr = 0 ∨ e.addr = (locoAt l i).addr ∨ Absent l e.addr

/-- What the refresh scheduler works on, in a state. -/
def sweepOf (s : State) : Sweep where
  cursor := s.rfCursor
  level := s.rfLevel
  loco := s.loco

/-- The state with the refresh scheduler moved. -/
def withSweep (s : State) (w : Sweep) : State :=
  { s with rfCursor := w.cursor, rfLevel := w.level, loco := w.loco }

/-- One write of a `CORE` step outside the mailbox and the run-mode: whatever the command, the layers of `prog_step` and
the selection do, they do by a chain of these. -/
inductive CoreWrite (ok : Prop) (s : State) : State → Prop where
  | resp (r : Response) : CoreWrite ok s { s with resp := r }
  | ack (a : List Bool) (n : Nat) : CoreWrite ok s { s with ackIn := a, ackDraws := n }
  | prog (t : State) (h : ProgWrite s t) : CoreWrite ok s t
  | smq (q : Ring) (h : RingWrite (Legal ok s) s.smq q) : CoreWrite ok s { s with smq := q }
  | hpq (q : Ring) (h : RingWrite (Legal ok s) s.hpq q) : CoreWrite ok s { s with hpq := q }
  | lpq (q : Ring) (h : RingWrite (Legal ok s) s.lpq q) : CoreWrite ok s { s with lpq := q }
  | rpt (l : List RptEntry) (h : RptWrite (Legal ok s) s.rpt l) : CoreWrite ok s { s with rpt := l }
  | loco (i : Nat) (e : LocoEntry) (h : i < s.loco.length → EntryFits s.loco i e) :
      CoreWrite ok s { s with loco := s.loco.set i e }
  | sweep : CoreWrite ok s (withSweep s (advanceCursor s.params (sweepOf s)))

/-- A chain of writes. -/
def CoreWrites (ok : Prop) : State → State → Prop := Relation.ReflTransGen (CoreWrite ok)

theorem CoreWrites.refl {ok : Prop} {s : State} : CoreWrites ok s s := Relation.ReflTransGen.refl

theorem CoreWrite.chain {ok : Prop} {s t : State} (h : CoreWrite ok s t) : CoreWrites ok s t :=
  Relation.ReflTransGen.single h

theorem CoreWrites.trans {ok : Prop} {s t u : State} (h1 : CoreWrites ok s t) (h2 : CoreWrites ok t u) :
    CoreWrites ok s u :=
  Relation.ReflTransGen.trans h1 h2

theorem CoreWrites.tail {ok : Prop} {s t u : State} (h1 : CoreWrites ok s t) (h2 : CoreWrite ok t u) :
    CoreWrites ok s u :=
  Relation.ReflTransGen.tail h1 h2

/-- What one write keeps, a chain keeps. -/
theorem CoreWrites.keeps {ok : Prop} {P : State → Prop} (hP : ∀ a b, CoreWrite ok a b → P a → P b) {s t : State}
    (h : CoreWrites ok s t) (hs : P s) : P t := by
  induction h with
  | refl => exact hs
  | tail _ hw ih => exact hP _ _ hw ih

/-! ### What a chain of writes leaves alone -/

/-- Only what a `CORE` step may write outside the mailbox and the run-mode has changed, and not `PRIOR_MODE`. -/
structure CoreFrame (s t : State) : Prop where
  rest : t = { s with
    smq := t.smq, hpq := t.hpq, lpq := t.lpq, rpt := t.rpt, loco := t.loco, rfCursor := t.rfCursor
    rfLevel := t.rfLevel, prog := t.prog, resp := t.resp, ackIn := t.ackIn, ackDraws := t.ackDraws }
  prior : t.prog.priorMode = s.prog.priorMode

theorem CoreWrite.frame {ok : Prop} {s t : State} (h : CoreWrite ok s t) : CoreFrame s t := by
  cases h
  case prog hw => exact ⟨by rw [hw.only], hw.prior⟩
  all_goals exact ⟨rfl, rfl⟩

theorem CoreWrites.frame {ok : Prop} {s t : State} (h : CoreWrites ok s t) : CoreFrame s t := by
  refine h.keeps (P := CoreFrame s) (fun a b hw ha => ?_) ⟨rfl, rfl⟩
  have hb := hw.frame
  exact ⟨by rw [hb.rest, ha.rest], hb.prior.trans ha.prior⟩

/-! ### The storage's shape -/

theorem Params.valid_capacities {p : Params} (h : p.valid = true) :
    2 ≤ p.smqSize ∧ 2 ≤ p.hpqSize ∧ 2 ≤ p.lpqSize ∧ 1 ≤ p.locoSize := by
  simp only [Params.valid, Bool.and_eq_true, decide_eq_true_eq] at h
  tauto

theorem RingWrite.ok {legal : Message → Prop} {n : Nat} {q q' : Ring} (h : RingWrite legal q q') (hq : q.Ok n) :
    q'.Ok n := by
  cases h with
  | push m _ _ h => exact Ring.push_ok hq h
  | insert m _ _ h => simpa [h] using lpInsertRing_ok m hq
  | pop => exact Ring.pop_ok hq
  | flush => exact ⟨hq.1, hq.2.2, hq.2.2⟩

theorem RingWrite.mem {legal : Message → Prop} {q q' : Ring} {x : Message} (h : RingWrite legal q q')
    (hx : x ∈ q'.slots) : x ∈ q.slots ∨ legal x := by
  cases h with
  | push m _ hm h => exact (Ring.mem_push h hx).imp_right (by rintro rfl; exact hm)
  | insert m _ hm h => exact (mem_lpInsertRing h hx).imp_right (by rintro rfl; exact hm)
  | pop => exact .inl hx
  | flush => exact .inl hx

theorem RptWrite.length {legal : Message → Prop} {l l' : List RptEntry} (h : RptWrite legal l l') :
    l'.length = l.length := by
  cases h <;> simp

theorem RptWrite.mem {legal : Message → Prop} {l l' : List RptEntry} {e : RptEntry} (h : RptWrite legal l l')
    (he : e ∈ l') : (∃ x ∈ l, e.msg = x.msg) ∨ legal e.msg := by
  cases h with
  | put m hm => exact (mem_rptPut he).imp (fun h => ⟨e, h, rfl⟩) (by rintro rfl; exact hm)
  | clear k =>
    obtain ⟨x, hx, rfl⟩ := List.mem_map.mp he
    refine .inl ⟨x, hx, ?_⟩
    split <;> rfl
  | count j x hx =>
    rcases List.mem_or_eq_of_mem_set he with h | rfl
    · exact .inl ⟨e, h, rfl⟩
    · exact .inl ⟨x, List.mem_of_getElem? hx, rfl⟩

theorem refreshLevels_pos (p : Params) : 0 < refreshLevels p := by
  unfold refreshLevels
  split <;> decide

theorem advanceLevel_level_lt {p : Params} {w : Sweep} : (advanceLevel p w).level < refreshLevels p := by
  unfold advanceLevel
  split
  next h => exact h
  next => exact refreshLevels_pos p

theorem advanceLevel_cursor (p : Params) (w : Sweep) : (advanceLevel p w).cursor = w.cursor := by
  unfold advanceLevel
  split <;> rfl

theorem advanceCursor_cursor_lt {p : Params} {w : Sweep} (h : 0 < w.loco.length) :
    (advanceCursor p w).cursor < w.loco.length := by
  unfold advanceCursor
  dsimp only
  split
  · simpa [advanceLevel_cursor] using h
  · exact Nat.mod_lt _ h

theorem advanceCursor_level_lt {p : Params} {w : Sweep} (h : w.level < refreshLevels p) :
    (advanceCursor p w).level < refreshLevels p := by
  unfold advanceCursor
  dsimp only
  split
  · exact advanceLevel_level_lt
  · exact h

theorem Shaped.write {ok : Prop} {s t : State} (h : CoreWrite ok s t) (hs : Shaped s) : Shaped t := by
  obtain ⟨hp, h1, h2, h3, h4, h5, h6, h7⟩ := hs
  cases h with
  | resp | ack => exact ⟨hp, h1, h2, h3, h4, h5, h6, h7⟩
  | prog t hw => rw [hw.only]; exact ⟨hp, h1, h2, h3, h4, h5, h6, h7⟩
  | smq q hq => exact ⟨hp, hq.ok h1, h2, h3, h4, h5, h6, h7⟩
  | hpq q hq => exact ⟨hp, h1, hq.ok h2, h3, h4, h5, h6, h7⟩
  | lpq q hq => exact ⟨hp, h1, h2, hq.ok h3, h4, h5, h6, h7⟩
  | rpt l hl => exact ⟨hp, h1, h2, h3, hl.length.trans h4, h5, h6, h7⟩
  | loco i e _ => exact ⟨hp, h1, h2, h3, h4, List.length_set.trans h5, h6, h7⟩
  | sweep =>
    obtain ⟨-, -, -, hn⟩ := Params.valid_capacities hp
    refine ⟨hp, h1, h2, h3, h4, (advanceCursor_length _ _).trans h5, ?_, advanceCursor_level_lt h7⟩
    exact (advanceCursor_cursor_lt (by simp only [sweepOf, h5]; omega)).trans_le h5.le

/-! ### The locomotive table -/

theorem locoAt_set {l : List LocoEntry} {i j : Nat} {e : LocoEntry} (hj : j < l.length) :
    locoAt (l.set i e) j = if i = j then e else locoAt l j := by
  by_cases h : i = j
  · subst h
    simp [locoAt, List.getD, hj]
  · simp [locoAt, List.getD, h]

theorem locoAt_map_ageLoco (p : Params) {l : List LocoEntry} {i : Nat} (h : i < l.length) :
    locoAt (l.map (ageLoco p)) i = ageLoco p (locoAt l i) := by
  simp [locoAt, List.getD, h]

theorem ageLoco_refresh_le {p : Params} {e : LocoEntry} (h : e.refresh.toNat ≤ p.staleMax) :
    (ageLoco p e).refresh.toNat ≤ p.staleMax := by
  unfold ageLoco
  split
  · exact h
  · simp only [BitVec.toNat_ofNat]
    exact (Nat.mod_le _ _).trans (min_le_right _ _)

theorem TableOk.set {s : State} {i : Nat} {e : LocoEntry} (h : TableOk s)
    (he : i < s.loco.length → EntryFits s.loco i e) : TableOk { s with loco := s.loco.set i e } := by
  by_cases hi : i < s.loco.length
  case neg => rw [List.set_eq_of_length_le (by omega)]; exact ⟨h.once, h.active, h.bounded⟩
  obtain ⟨hfresh, hactive, honce⟩ := he hi
  have once_of (j : Nat) (hj : j < s.loco.length) (ha : e.addr ≠ 0) (hj' : e.addr = (locoAt s.loco j).addr) :
      i = j := by
    rcases honce with h0 | hold | habs
    · exact absurd h0 ha
    · exact h.once i j hi hj (hold ▸ ha) (hold ▸ hj')
    · exact absurd hj'.symm (habs j hj)
  refine ⟨fun j k hj hk => ?_, fun j hj => ?_, fun j hj => ?_⟩
  all_goals simp only [List.length_set] at *
  · rw [locoAt_set hj, locoAt_set hk]
    split <;> split <;> intro h0 hjk
    · omega
    next hij _ => exact hij ▸ once_of k hk h0 hjk
    next hik => exact hik ▸ (once_of j hj (hjk ▸ h0) hjk.symm).symm
    · exact h.once j k hj hk h0 hjk
  · rw [locoAt_set hj]
    split
    · exact hactive
    · exact h.active j hj
  · rw [locoAt_set hj]
    split
    · simp [hfresh]
    · exact h.bounded j hj

theorem advanceCursor_loco (p : Params) (w : Sweep) :
    (advanceCursor p w).loco = w.loco ∨ (advanceCursor p w).loco = w.loco.map (ageLoco p) := by
  unfold advanceCursor advanceLevel
  dsimp only
  split
  · split
    · exact .inl rfl
    · exact .inr rfl
  · exact .inl rfl

theorem TableOk.age {s t : State} (h : TableOk s) (hl : t.loco = s.loco.map (ageLoco s.params))
    (hp : t.params = s.params) : TableOk t := by
  have hn : t.loco.length = s.loco.length := by simp [hl]
  have hat (i : Nat) (hi : i < t.loco.length) : locoAt t.loco i = ageLoco s.params (locoAt s.loco i) := by
    rw [hl]; exact locoAt_map_ageLoco _ (hn ▸ hi)
  refine ⟨fun i j hi hj h0 hij => ?_, fun i hi => ?_, fun i hi => ?_⟩
  · rw [hat i hi, ageLoco_addr] at h0 hij
    rw [hat j hj, ageLoco_addr] at hij
    exact h.once i j (hn ▸ hi) (hn ▸ hj) h0 hij
  · rw [hat i hi, ageLoco_addr, ageLoco_active]
    exact h.active i (hn ▸ hi)
  · rw [hat i hi, hp]
    exact ageLoco_refresh_le (h.bounded i (hn ▸ hi))

theorem TableOk.write {ok : Prop} {s t : State} (h : CoreWrite ok s t) (hs : TableOk s) : TableOk t := by
  cases h with
  | prog t hw => rw [hw.only]; exact ⟨hs.once, hs.active, hs.bounded⟩
  | loco i e he => exact hs.set he
  | sweep =>
    rcases advanceCursor_loco s.params (sweepOf s) with hl | hl
    · simp only [withSweep, hl]; exact ⟨hs.once, hs.active, hs.bounded⟩
    · exact hs.age hl rfl
  | resp | ack | smq | hpq | lpq | rpt => exact ⟨hs.once, hs.active, hs.bounded⟩

/-! ### Message sizes -/

theorem SizesOk.write {ok : Prop} (hok : ok) {s t : State} (h : CoreWrite ok s t) (hs : SizesOk s) : SizesOk t := by
  have queue {q q' : Ring} (h : RingWrite (Legal ok s) q q') (hq : ∀ m ∈ q.slots, sizeOk m = true) :
      ∀ m ∈ q'.slots, sizeOk m = true := fun m hm => (h.mem hm).elim (hq m) fun hl => hl hok hs
  obtain ⟨h1, h2, h3, h4, h5⟩ := hs
  cases h with
  | resp | ack | loco | sweep => exact ⟨h1, h2, h3, h4, h5⟩
  | prog t hw => rw [hw.only]; exact ⟨h1, h2, h3, h4, hw.pkt h5⟩
  | smq q hq => exact ⟨queue hq h1, h2, h3, h4, h5⟩
  | hpq q hq => exact ⟨h1, queue hq h2, h3, h4, h5⟩
  | lpq q hq => exact ⟨h1, h2, queue hq h3, h4, h5⟩
  | rpt l hl =>
    refine ⟨h1, h2, h3, fun e he => ?_, h5⟩
    rcases hl.mem he with ⟨x, hx, hm⟩ | hm
    · exact hm ▸ h4 x hx
    · exact hm hok ⟨h1, h2, h3, h4, h5⟩

/-! ## Commands -/

section Commands

variable {ok : Prop}

theorem legal_of_sizeOk {s : State} {m : Message} (h : sizeOk m = true) : Legal ok s m := fun _ _ => h

theorem coreWrites_pushSmq {s : State} {m : Message} (hm : Legal ok s m) : CoreWrites ok s (pushSmq m s).1 := by
  unfold pushSmq
  split
  next q h => exact (CoreWrite.smq q (.push m q hm h)).chain
  next => exact .refl

theorem coreWrites_pushHpq {s : State} {m : Message} (hm : Legal ok s m) : CoreWrites ok s (pushHpq m s).1 := by
  unfold pushHpq
  split
  next q h => exact (CoreWrite.hpq q (.push m q hm h)).chain
  next => exact .refl

theorem coreWrites_lpInsert {s : State} {m : Message} (hm : Legal ok s m) : CoreWrites ok s (lpInsert m s).1 := by
  unfold lpInsert
  split
  next q h => exact (CoreWrite.lpq q (.insert m q hm h)).chain
  next => exact .refl

theorem coreWrites_enqueue {s : State} {m : Message} (hm : Legal ok s m) : CoreWrites ok s (enqueue m s).1 := by
  unfold enqueue
  split
  · exact coreWrites_pushSmq hm
  · exact coreWrites_lpInsert hm

theorem coreWrites_clearRepeats (m : Message) (s : State) : CoreWrites ok s (clearRepeats m s) := by
  unfold clearRepeats
  split
  · exact .refl
  · exact (CoreWrite.rpt _ (.clear _)).chain

theorem coreWrite_respond (st : Byte) (rd : BitVec 16) (s : State) : CoreWrite ok s (respond st rd s) := .resp _

theorem coreWrite_respondFlags (f : OrgFlags) (s : State) : CoreWrite ok s (respondFlags f s) := .resp _

theorem coreWrites_enqueueOnly {s t : State} {m : Message} (hm : Legal ok s m) (h : enqueueOnly m s = .next t) :
    CoreWrites ok s t := by
  unfold enqueueOnly at h
  cases h
  exact (coreWrites_enqueue hm).tail (coreWrite_respondFlags _ _)

/-! ### The table -/

/-- `loco_get` answers an entry that holds the address, and has written the table at most there, with a new entry. -/
theorem locoGet_cases (p : Params) (a : LocoAddr) (l : List LocoEntry) :
    (∃ i, HoldsAt l a i ∧ locoGet p a l = (i, false, l)) ∨
    (Absent l a ∧ locoGet p a l = (locoVictim l, true, l.set (locoVictim l) (newLoco p a))) := by
  unfold locoGet
  split
  next i hi => exact .inl ⟨i, locoFind_eq_some.mp hi, rfl⟩
  next hi => exact .inr ⟨locoFind_eq_none.mp hi, rfl⟩

theorem coreWrites_locoGet {s : State} {a : LocoAddr} (ha : a ≠ 0) :
    CoreWrites ok s { s with loco := (locoGet s.params a s.loco).2.2 } := by
  rcases locoGet_cases s.params a s.loco with ⟨i, -, hg⟩ | ⟨habs, hg⟩ <;> rw [hg]
  · exact .refl
  · exact (CoreWrite.loco _ _ fun _ => ⟨rfl, by simpa [newLoco] using ha, .inr (.inr habs)⟩).chain

theorem locoGet_addr {p : Params} {a : LocoAddr} {l : List LocoEntry}
    (h : (locoGet p a l).1 < (locoGet p a l).2.2.length) :
    (locoAt (locoGet p a l).2.2 (locoGet p a l).1).addr = a := by
  rcases locoGet_cases p a l with ⟨i, hi, hg⟩ | ⟨-, hg⟩ <;> rw [hg] at h ⊢
  · exact hi.2.1
  · simp only [List.length_set] at h
    simp [locoAt_set h, newLoco]

/-- The update of an entry by a locomotive command. -/
theorem coreWrites_updateLoco {s : State} {a : LocoAddr} (ha : a ≠ 0) {e : LocoEntry}
    (haddr : e.addr = (locoAt (locoGet s.params a s.loco).2.2 (locoGet s.params a s.loco).1).addr)
    (hactive : e.active = true) (hfresh : e.refresh = 0) :
    CoreWrites ok s { s with loco := (locoGet s.params a s.loco).2.2.set (locoGet s.params a s.loco).1 e } := by
  refine (coreWrites_locoGet ha).tail (CoreWrite.loco _ e fun h => ⟨hfresh, ?_, .inr (.inl haddr)⟩)
  simpa [hactive, haddr, locoGet_addr h] using ha

/-- The update of an entry and the enqueue of the message that tells of it (42_organizer R204, R205). -/
theorem coreWrites_announceLoco {s : State} {a : LocoAddr} (ha : a ≠ 0) {e : LocoEntry} {m : Message}
    (haddr : e.addr = (locoAt (locoGet s.params a s.loco).2.2 (locoGet s.params a s.loco).1).addr)
    (hactive : e.active = true) (hfresh : e.refresh = 0) (hm : sizeOk m = true) :
    CoreWrites ok s (enqueue m (clearRepeats m
      { s with loco := (locoGet s.params a s.loco).2.2.set (locoGet s.params a s.loco).1 e })).1 :=
  (coreWrites_updateLoco ha haddr hactive hfresh).trans
    ((coreWrites_clearRepeats m _).trans (coreWrites_enqueue (legal_of_sizeOk hm)))

theorem coreWrites_execLocoSpeed {s t : State} {a : LocoAddr} {v : Byte} (ha : a ≠ 0)
    (h : execLocoSpeed a v s = .next t) : CoreWrites ok s t := by
  simp only [execLocoSpeed] at h
  split at h <;> cases h
  · refine (CoreWrites.trans ?_ (coreWrites_pushHpq (legal_of_sizeOk (by simp)))).tail (coreWrite_respondFlags _ _)
    exact coreWrites_announceLoco ha rfl rfl rfl (by simp)
  · refine CoreWrites.tail ?_ (coreWrite_respondFlags _ _)
    exact coreWrites_announceLoco ha rfl rfl rfl (by simp)

theorem coreWrites_setGroup {s t : State} {g : Nat} {a : LocoAddr} {d : Byte} (ha : a ≠ 0)
    (h : setGroup g a d s = .next t) : CoreWrites ok s t := by
  unfold setGroup at h
  cases h
  refine CoreWrites.tail ?_ (coreWrite_respondFlags _ _)
  exact coreWrites_announceLoco ha rfl rfl rfl (by simp)

theorem coreWrites_execLocoForget {s t : State} {a : LocoAddr} (h : execLocoForget a s = .next t) :
    CoreWrites ok s t := by
  unfold execLocoForget at h
  split at h <;> cases h
  · exact (CoreWrite.loco _ emptyLoco fun _ => ⟨rfl, by decide, .inl rfl⟩).chain.tail (coreWrite_respond _ _ _)
  · exact (coreWrite_respond _ _ _).chain

theorem coreWrites_execBcastStop {s t : State} {e : Bool} (h : execBcastStop e s = .next t) : CoreWrites ok s t := by
  simp only [execBcastStop] at h
  split at h <;> cases h
  · exact (coreWrites_pushSmq (legal_of_sizeOk (by simp))).tail (coreWrite_respondFlags _ _)
  · exact (coreWrites_pushHpq (legal_of_sizeOk (by simp))).tail (coreWrite_respondFlags _ _)

/-! ### Queries and the programmer's commands -/

theorem coreWrite_respondFound (v : Option Nat) (s : State) : CoreWrite ok s (respondFound v s) := by
  unfold respondFound
  split <;> exact coreWrite_respond _ _ _

theorem coreWrites_start {s t : State} {op : TaskOp} {a : TaskArgs} (h : start op a s = .next t) :
    CoreWrites ok s t := by
  unfold start at h
  split at h <;> cases h
  · exact (coreWrite_respond _ _ _).chain
  · exact (CoreWrite.prog _ (progWrite_setProg rfl rfl)).chain.tail (coreWrite_respond _ _ _)

theorem coreWrites_execProgTerminate {s t : State} (h : execProgTerminate s = .next t) : CoreWrites ok s t := by
  unfold execProgTerminate at h
  split at h <;> cases h
  · refine (CoreWrite.prog _ (progWrite_setProg ?_ ?_)).chain.tail (coreWrite_respond _ _ _)
    all_goals
      unfold terminateTask
      dsimp only
      split <;> rfl
  · exact (CoreWrite.prog _ (progWrite_setProg rfl rfl)).chain.tail (coreWrite_respond _ _ _)

theorem ne_zero_of_legal {a : LocoAddr} (h : LocoAddr.legal a = true) : a ≠ 0 := by
  rintro rfl
  cases h

/-- Every command is a chain of writes. -/
theorem coreWrites_exec {ext : Bool} {i : Instr} {s t : State} (hw : i.wellFormed ext = true)
    (hc : ok → ∀ mn h wd r, i = .fastClock mn h wd r → sizeOk (fastClockMsg s.params mn h wd r) = true)
    (h : exec i s = .next t) : CoreWrites ok s t := by
  have enqueues {m : Message} (hi : enqueueCommand s.params i = some m) : Legal ok s m :=
    fun hok _ => sizeOk_enqueueCommand hi (hc hok)
  cases i with
  | locoSpeed a v => exact coreWrites_execLocoSpeed (ne_zero_of_legal hw) h
  | locoFgrp1 | locoFgrp2 | locoFgrp3 => exact coreWrites_setGroup (ne_zero_of_legal hw) h
  | locoFgrp4 | locoFgrp5 => exact coreWrites_setGroup (ne_zero_of_legal (Bool.and_eq_true_iff.mp hw).2) h
  | locoForget => exact coreWrites_execLocoForget h
  | bcastStop => exact coreWrites_execBcastStop h
  | accBasic | accExt | pomLocoWrbyte | pomLocoWrbit | pomLocoVerify | pomAccWrbyte | fastClock =>
    exact coreWrites_enqueueOnly (enqueues rfl) h
  | queryReady => cases h; exact (coreWrite_respond _ _ _).chain
  | findActive | nextActive | prevActive => cases h; exact (coreWrite_respondFound _ _).chain
  | progRegRead | progRegWrite | progPagedRead | progPagedWrite | progDirectRead | progDirectWrite
  | progDirectBitWrite | progDirectBitVerify | progLongaddrRead | progLongaddrWrite | progQueryBitcap =>
    exact coreWrites_start h
  | progTerminate => exact coreWrites_execProgTerminate h
  | progStatus | progValue => cases h; exact (coreWrite_respond _ _ _).chain

end Commands

end Sys2Proof.Machine
end

section
/-! SUPPORT. Every transition as a chain of writes: the layers of `prog_step`, the two writes of the run-mode, the
selection, the `CORE` step and the environment; from it the invariants of the storage and of the message sizes. -/

namespace Sys2Proof.Machine

section ProgStep

variable {ok : Prop}

theorem coreWrite_setProg {f : Programmer → Programmer} {s : State} (hp : (f s.prog).priorMode = s.prog.priorMode)
    (hi : (f s.prog).innerPkt = s.prog.innerPkt) : CoreWrite ok s (setProg f s) :=
  .prog _ (progWrite_setProg hp hi)

theorem coreWrites_innerPush {s : State} {m : Message} (hm : Legal ok s m) (st : InnerState) :
    CoreWrites ok s (innerPush m st s) := by
  unfold innerPush
  split
  next q h => exact (CoreWrite.smq q (.push m q hm h)).chain.tail (coreWrite_setProg rfl rfl)
  next => exact .refl

theorem legal_innerCmdMsg (s : State) : Legal ok s (innerCmdMsg s) := fun _ h => h.inner

theorem coreWrite_ackPoll (s : State) : CoreWrite ok s (ackPoll s).2 := by
  rw [ackPoll_frame]
  exact .ack _ _

theorem coreWrites_innerWait (s : State) : CoreWrites ok s (innerWait s) := by
  have goesOn {u : State} (h : CoreWrites ok s u) : CoreWrites ok s
      (if u.prog.innerAck || smDrained u then setProg (fun g => { g with innerState := .post }) u else u) := by
    split
    · exact h.tail (coreWrite_setProg rfl rfl)
    · exact h
  have polled : CoreWrites ok s (ackPoll s).2 := (coreWrite_ackPoll s).chain
  unfold innerWait
  dsimp only
  by_cases ha : (ackPoll s).1 = true
  · simp only [ha, if_true]
    exact goesOn (polled.tail (coreWrite_setProg rfl rfl))
  · simp only [ha]
    exact goesOn polled

theorem coreWrites_innerStep (s : State) : CoreWrites ok s (innerStep s) := by
  unfold innerStep
  split
  · exact coreWrites_innerPush (legal_of_sizeOk (by simp)) _
  · exact coreWrites_innerPush (legal_innerCmdMsg s) _
  · exact coreWrites_innerWait s
  · exact coreWrites_innerPush (legal_of_sizeOk (by simp)) _
  · exact .refl
  · exact .refl

/-- The layers above the inner loop write the programmer's registers alone. -/
theorem progAnswer_upperLayers (s : State) :
    ProgAnswer s (if s.prog.byteBusy = true then .next (byteStep s) else seqStep s) :=
  progAnswer_ite (progAnswer_next (progWrite_byteStep s)) (progAnswer_seqStep s)

theorem coreWrites_layerStep {s t : State} (h : layerStep s = .next t) : CoreWrites ok s t := by
  cases hi : s.prog.innerState <;> simp only [layerStep, hi] at h
  case pre | cmd | wait | post => cases h; exact coreWrites_innerStep s
  case idle | done => exact (CoreWrite.prog _ (progAnswer_upperLayers s t h)).chain

/-! ### Entry and exit -/

/-- The two writes of `RUN_MODE` by `prog_step`: the entry into programming, from a RUN mode with a drained mailbox, and
the return to the saved mode as the task ends (43_programmer R270, R272). -/
inductive ModeWrite (s : State) : State → Prop where
  | enter (hrun : isProg s.runMode = false) (hshort : s.runMode ≠ .runShort) (hfree : s.mbxCnt = 0) :
      ModeWrite s { s with
        runMode := .progOkay
        prog := { s.prog with priorMode := s.runMode, seqEntered := true, seqState := .step } }
  | restore (hmode : s.runMode = .progOkay) :
      ModeWrite s { s with
        runMode := s.prog.priorMode
        prog := { s.prog with seqEntered := false, prBusy := false, seqState := .idle } }

/-- A chain of writes, and then possibly one write of the run-mode. -/
def ProgWrites (ok : Prop) (s t : State) : Prop := ∃ a, CoreWrites ok s a ∧ (t = a ∨ ModeWrite a t)

theorem CoreWrites.progWrites {s t : State} (h : CoreWrites ok s t) : ProgWrites ok s t := ⟨t, h, .inl rfl⟩

theorem CoreWrites.trans_prog {s t u : State} (h1 : CoreWrites ok s t) (h2 : ProgWrites ok t u) :
    ProgWrites ok s u := by
  obtain ⟨a, ha, hu⟩ := h2
  exact ⟨a, h1.trans ha, hu⟩

theorem progWrites_enterStep {s : State} (hrun : isProg s.runMode = false) (hshort : s.runMode ≠ .runShort) :
    ProgWrites ok s (enterStep s) := by
  unfold enterStep
  split
  next => exact CoreWrites.refl.progWrites
  next hfree =>
    have hp : CoreWrites ok s (pushSmq (resetTimes s.params.progEntryResets) s).1 :=
      coreWrites_pushSmq (legal_of_sizeOk (by simp))
    refine ⟨_, hp, .inr ?_⟩
    simp only [pushSmq_eq]
    exact .enter hrun hshort (by simpa using hfree)

theorem progWrites_exitRelease (s : State) : ProgWrites ok s (exitRelease s) := by
  unfold exitRelease
  dsimp only
  split
  next h => exact ⟨s, .refl, .inr (.restore h.2)⟩
  next => exact (coreWrite_setProg (s := s) rfl rfl).chain.progWrites

theorem progWrites_exitStep (s : State) : ProgWrites ok s (exitStep s) := by
  unfold exitStep
  split
  · split
    · exact progWrites_exitRelease s
    · exact CoreWrites.refl.progWrites
  · exact (CoreWrite.smq _ .flush).chain.trans_prog (progWrites_exitRelease _)

/-- Supervision lets an entry through only from a RUN mode other than the short. -/
theorem runMode_of_modeCheck_enter {s : State} (h : (modeCheck s).prog.seqState = .enter) :
    isProg s.runMode = false ∧ s.runMode ≠ .runShort := by
  unfold modeCheck at h
  split at h
  next => cases h
  next h1 =>
    split at h
    next => cases h
    next h2 =>
      split at h
      next => cases h
      next => simp_all

theorem progWrites_progAct {s t : State}
    (hrun : s.prog.seqState = .enter → isProg s.runMode = false ∧ s.runMode ≠ .runShort)
    (h : progAct s = .next t) : ProgWrites ok s t := by
  unfold progAct at h
  split at h
  next => cases h; exact CoreWrites.refl.progWrites
  next hs => cases h; exact progWrites_enterStep (hrun hs).1 (hrun hs).2
  next => cases h; exact progWrites_exitStep s
  next => exact (coreWrites_layerStep h).progWrites

theorem progWrites_supervised {s t : State} (h : progAct (modeCheck s) = .next t) : ProgWrites ok s t := by
  refine (CoreWrite.prog _ (progWrite_modeCheck s)).chain.trans_prog (progWrites_progAct (fun hs => ?_) h)
  have hm : (modeCheck s).runMode = s.runMode := by rw [onlyProg_modeCheck s]
  exact hm ▸ runMode_of_modeCheck_enter hs

theorem progWrites_progStep {s t : State} (h : progStep s = .next t) : ProgWrites ok s t := by
  unfold progStep at h
  split at h
  next => cases h; exact CoreWrites.refl.progWrites
  next => exact progWrites_supervised h
  next => exact progWrites_supervised h
  next hs => exact progWrites_progAct (fun he => by simp [hs] at he) h

end ProgStep

/-! ## Selection -/

section Selection

variable {ok : Prop}

/-- The outcome is one dispatch, from a state that a chain of writes leads to. -/
def Selects (ok : Prop) (s : State) (o : Result) : Prop :=
  ∃ (m : Message) (n : Byte) (src : MbxSrc) (s1 : State), CoreWrites ok s s1 ∧ o = dispatch m n src s1

theorem selects_dispatch {s s1 : State} (h : CoreWrites ok s s1) (m : Message) (n : Byte) (src : MbxSrc) :
    Selects ok s (dispatch m n src s1) := ⟨m, n, src, s1, h, rfl⟩

theorem coreWrites_refreshScan (p : Params) (n : Nat) (w : Sweep) {s : State} (hp : s.params = p) :
    CoreWrites ok (withSweep s w) (withSweep s (refreshScan p n w).2) := by
  induction n generalizing w with
  | zero => exact .refl
  | succ n ih =>
    have one : CoreWrites ok (withSweep s w) (withSweep s (advanceCursor p w)) := by
      subst hp
      exact (CoreWrite.sweep (s := withSweep s w)).chain
    simp only [refreshScan]
    split
    · exact one
    · exact one.trans (ih _)

theorem coreWrites_refreshNext (s : State) : CoreWrites ok s (refreshNext s).2.2 := by
  have h := coreWrites_refreshScan (ok := ok) s.params (s.loco.length * refreshLevels s.params) (sweepOf s) (s := s) rfl
  simp only [refreshNext]
  split <;> exact h

theorem selects_dispatchRefresh (s : State) : Selects ok s (dispatchRefresh s) := by
  unfold dispatchRefresh
  dsimp only
  split <;> exact selects_dispatch (coreWrites_refreshNext s) _ _ _

theorem rptSelect_cnt_ne_zero {l : List RptEntry} {j : Nat} {e : RptEntry} (h : rptSelect l = some j)
    (he : l[j]? = some e) : e.cnt ≠ 0 := by
  unfold rptSelect at h
  split at h
  next => cases h
  next hz =>
    obtain ⟨x, hx, hc⟩ : ∃ x ∈ l, x.cnt ≠ 0 := by simpa using hz
    obtain ⟨c, hj, hmax, -⟩ := findIdx?_eq_some.mp h
    have hec : e.cnt.toNat = c := by simpa [he] using hj
    have hle : x.cnt.toNat ≤ c := of_decide_eq_true (List.all_eq_true.mp hmax _ (List.mem_map_of_mem hx))
    rintro h0
    rw [h0] at hec
    exact hc (BitVec.eq_of_toNat_eq (by simp at hec ⊢; omega))

theorem selects_dispatchRepeat (s : State) : Selects ok s (dispatchRepeat s) := by
  unfold dispatchRepeat
  split
  next j hj =>
    split
    next e he =>
      split
      · exact selects_dispatch (CoreWrite.rpt _ (.count j e he (rptSelect_cnt_ne_zero hj he))).chain _ _ _
      · exact selects_dispatchRefresh s
    next => exact selects_dispatchRefresh s
  next => exact selects_dispatchRefresh s

theorem selects_dispatchLow (s : State) : Selects ok s (dispatchLow s) := by
  unfold dispatchLow
  split
  next m hm =>
    split
    · have put : CoreWrite ok s { s with rpt := rptPut m s.rpt } :=
        .rpt _ (.put m fun _ h => h.lpq m (Ring.head_mem hm))
      exact selects_dispatch (put.chain.tail (.lpq _ (.pop m hm))) _ _ _
    · exact selects_dispatchRepeat s
  next => exact selects_dispatchRepeat s

theorem selects_dispatchRun (s : State) : Selects ok s (dispatchRun s) := by
  unfold dispatchRun
  split
  next m hm =>
    split
    · exact selects_dispatch (CoreWrite.hpq _ (.pop m hm)).chain _ _ _
    · exact selects_dispatchLow s
  next => exact selects_dispatchLow s

theorem selects_dispatchProg (s : State) : Selects ok s (dispatchProg s) := by
  unfold dispatchProg
  split
  next m hm => exact selects_dispatch (CoreWrite.smq _ (.pop m hm)).chain _ _ _
  next => exact selects_dispatch .refl _ _ _

/-- Whatever the selection answers, it answers by one dispatch after a chain of writes. -/
theorem selects_organizerDispatch (s : State) : Selects ok s (organizerDispatch s) := by
  unfold organizerDispatch
  split
  · exact selects_dispatchProg s
  · exact selects_dispatchRun s

end Selection

/-! ## The `CORE` step -/

section CoreStep

variable {ok : Prop}

/-- The last part of a `CORE` step: nothing while transmissions are owed, else the selection's writes and
the mailbox. -/
theorem coreDispatch_cases {s t : State} (h : coreDispatch s = .next t) :
    (s.mbxCnt ≠ 0 ∧ t = s) ∨
    (s.mbxCnt = 0 ∧ t.prog = s.prog ∧ ∃ m n src a, CoreWrites ok s a ∧ sizeOk m = true ∧ t = Dispatched m n src a) := by
  unfold coreDispatch at h
  split at h
  next hfree =>
    refine .inr ⟨hfree, ?_, ?_⟩
    · obtain ⟨m, n, src, a, ho, -, ha⟩ := organizerDispatch_cases s
      obtain ⟨-, -, rfl⟩ := dispatch_eq_next.mp (ho ▸ h)
      rw [ha]
    · obtain ⟨m, n, src, a, ha, ho⟩ := selects_organizerDispatch (ok := ok) s
      obtain ⟨-, hm, rfl⟩ := dispatch_eq_next.mp (ho ▸ h)
      exact ⟨m, n, src, a, ha, hm, rfl⟩
  next hbusy => cases h; exact .inl ⟨hbusy, rfl⟩

/-- The command's part of a `CORE` step, where `ok` implies the constraint of the OPEN builder. -/
theorem coreWrites_runCommand {s t : State} (hok : ok → ClockBuilderOk s)
    (h : runCommand s.cmd { s with cmd := none } = .next t) : CoreWrites ok { s with cmd := none } t := by
  unfold runCommand at h
  split at h
  · cases h; exact .refl
  next w hw =>
    split at h
    · cases h; exact (CoreWrite.resp _).chain
    next i hi =>
      refine coreWrites_exec (wellFormed_of_decode hi) (fun ho mn hr wd r hclock => ?_) h
      exact hok ho w mn hr wd r hw (hclock ▸ hi)

/-- What a `CORE` step can do: take the word, write, move the run-mode at most once, dispatch. -/
theorem coreStep_cases {s t : State} (hok : ok → ClockBuilderOk s) (h : coreStep s = .next t) :
    ∃ a b, CoreWrites ok { s with cmd := none } a ∧ (b = a ∨ ModeWrite a b) ∧ coreDispatch b = .next t := by
  obtain ⟨c, hc, h⟩ := andThen_eq_next.mp h
  obtain ⟨b, hb, ht⟩ := andThen_eq_next.mp h
  obtain ⟨a, ha, hm⟩ := (coreWrites_runCommand hok hc).trans_prog (progWrites_progStep hb)
  exact ⟨a, b, ha, hm, ht⟩

end CoreStep

/-! ## Every transition -/

/-- The storage, its parameters and the inner packet are the same. -/
structure SameStorage (s t : State) : Prop where
  params : t.params = s.params
  smq : t.smq = s.smq
  hpq : t.hpq = s.hpq
  lpq : t.lpq = s.lpq
  rpt : t.rpt = s.rpt
  loco : t.loco = s.loco
  cursor : t.rfCursor = s.rfCursor
  level : t.rfLevel = s.rfLevel
  pkt : t.prog.innerPkt = s.prog.innerPkt

theorem Shaped.of_same {s t : State} (h : SameStorage s t) (hs : Shaped s) : Shaped t := by
  obtain ⟨hp, h1, h2, h3, h4, h5, h6, h7, -⟩ := h
  constructor <;> rw [hp]
  · exact hs.params
  · exact h1 ▸ hs.smq
  · exact h2 ▸ hs.hpq
  · exact h3 ▸ hs.lpq
  · exact h4 ▸ hs.rpt
  · exact h5 ▸ hs.loco
  · exact h6 ▸ hs.cursor
  · exact h7 ▸ hs.level

theorem TableOk.of_same {s t : State} (h : SameStorage s t) (hs : TableOk s) : TableOk t := by
  constructor <;> rw [h.loco]
  · exact hs.once
  · exact hs.active
  · exact h.params ▸ hs.bounded

theorem SizesOk.of_same {s t : State} (h : SameStorage s t) (hs : SizesOk s) : SizesOk t :=
  ⟨h.smq ▸ hs.smq, h.hpq ▸ hs.hpq, h.lpq ▸ hs.lpq, h.rpt ▸ hs.rpt, h.pkt ▸ hs.inner⟩

theorem ModeWrite.same {s t : State} (h : ModeWrite s t) : SameStorage s t := by
  cases h <;> exact ⟨rfl, rfl, rfl, rfl, rfl, rfl, rfl, rfl, rfl⟩

theorem sameStorage_dispatched (m : Message) (n : Byte) (src : MbxSrc) (s : State) :
    SameStorage s (Dispatched m n src s) := ⟨rfl, rfl, rfl, rfl, rfl, rfl, rfl, rfl, rfl⟩

theorem nextEvent_frame (s : State) :
    (nextEvent s).2 = { s with agenda := (nextEvent s).2.agenda, eventDraws := (nextEvent s).2.eventDraws } := by
  unfold nextEvent
  split <;> rfl

theorem encTick_frame (s : State) :
    encTick s = { s with enc := (encTick s).enc, mbxCnt := (encTick s).mbxCnt, track := (encTick s).track } := by
  unfold encTick
  split <;> rfl

/-- A transition of the environment writes the port, the run-mode and the inputs alone. -/
theorem perform_environment_frame {e : Event} {s t : State} (hcore : e ≠ .coreStep) (htick : e ≠ .encTick)
    (h : perform e s = .next t) :
    t = { s with runMode := t.runMode, cmd := t.cmd, cutoutEn := t.cutoutEn, clockMs := t.clockMs } := by
  cases e with
  | encTick => exact absurd rfl htick
  | coreStep => exact absurd rfl hcore
  | hostOffer w =>
    cases h
    unfold hostOffer
    split <;> rfl
  | statusWrite c =>
    simp only [perform, writeRunMode] at h
    split at h <;> cases h
    rfl
  | cutoutInput | clockAdvance => cases h; rfl

/-- A transition other than a `CORE` step leaves the storage. -/
theorem perform_sameStorage {e : Event} {s t : State} (hcore : e ≠ .coreStep) (h : perform e s = .next t) :
    SameStorage s t := by
  by_cases htick : e = .encTick
  · subst htick
    cases h
    rw [encTick_frame]
    exact ⟨rfl, rfl, rfl, rfl, rfl, rfl, rfl, rfl, rfl⟩
  · rw [perform_environment_frame hcore htick h]
    exact ⟨rfl, rfl, rfl, rfl, rfl, rfl, rfl, rfl, rfl⟩

/-- What every write of a `CORE` step keeps, and what depends on the storage alone, a `CORE` step keeps. -/
theorem coreStep_keeps {ok : Prop} {P : State → Prop} (hwrite : ∀ a b, CoreWrite ok a b → P a → P b)
    (hsame : ∀ a b, SameStorage a b → P a → P b) {s t : State} (hok : ok → ClockBuilderOk s)
    (h : coreStep s = .next t) (hs : P s) : P t := by
  obtain ⟨a, b, ha, hb, ht⟩ := coreStep_cases hok h
  have hPa : P a := ha.keeps hwrite (hsame s _ ⟨rfl, rfl, rfl, rfl, rfl, rfl, rfl, rfl, rfl⟩ hs)
  have hPb : P b := by
    rcases hb with rfl | hb
    · exact hPa
    · exact hsame _ _ hb.same hPa
  rcases coreDispatch_cases (ok := ok) ht with ⟨-, rfl⟩ | ⟨-, -, m, n, src, c, hc, -, rfl⟩
  · exact hPb
  · exact hsame _ _ (sameStorage_dispatched m n src c) (hc.keeps hwrite hPb)

/-- What every write of a `CORE` step keeps, and what depends on the storage alone, every step keeps. -/
theorem step_keeps {ok : Prop} {P : State → Prop} (hwrite : ∀ a b, CoreWrite ok a b → P a → P b)
    (hsame : ∀ a b, SameStorage a b → P a → P b) {s t : State} (hok : ok → ClockBuilderOk s) (h : step s = .next t)
    (hs : P s) : P t := by
  have he := nextEvent_frame s
  have hs' : P (nextEvent s).2 := hsame s _ (by rw [he]; exact ⟨rfl, rfl, rfl, rfl, rfl, rfl, rfl, rfl, rfl⟩) hs
  by_cases hcore : (nextEvent s).1 = .coreStep
  · rw [step, hcore] at h
    exact coreStep_keeps hwrite hsame (fun ho => by rw [he]; exact hok ho) h hs'
  · exact hsame _ _ (perform_sameStorage hcore h) hs'

/-- Settles O59: shape and table are each kept by every write of a `CORE` step and depend on the storage alone. -/
theorem stepKeepsStorage : Obligations.StepKeepsStorage := by
  unfold Obligations.StepKeepsStorage
  intro s t hs h
  have noClock : False → ClockBuilderOk s := False.elim
  exact ⟨step_keeps (fun _ _ => Shaped.write) (fun _ _ => Shaped.of_same) noClock h hs,
    step_keeps (fun _ _ => TableOk.write) (fun _ _ => TableOk.of_same) noClock h⟩

/-- Settles O60: the sizes are kept by every write of a `CORE` step, with the constraint of the OPEN builder where the
step takes a `FAST_CLOCK`, and depend on the storage alone. -/
theorem stepKeepsSizes : Obligations.StepKeepsSizes := by
  unfold Obligations.StepKeepsSizes
  intro s t hs hclock h
  exact step_keeps (fun _ _ => SizesOk.write trivial) (fun _ _ => SizesOk.of_same) (fun _ => hclock) h hs

end Sys2Proof.Machine
end

section
/-! SUPPORT. The encoder's tick, the mailbox while transmissions are owed, the frame of a `CORE` step, the other
transitions, and reset. -/

namespace Sys2Proof.Machine

/-! ## The encoder's tick -/

/-- Settles O10, by the arms of the tick. -/
theorem tickEmitsOneSymbol : Obligations.TickEmitsOneSymbol := by
  unfold Obligations.TickEmitsOneSymbol
  intro s
  cases h : s.enc.state <;> simp only [encTick, h]
  case idle => exact ⟨.one, rfl, by simp, by simp, rfl⟩
  case preamble =>
    refine ⟨.one, rfl, by simp, fun _ => ⟨rfl, rfl⟩, ?_⟩
    simp only [tickPreamble, emit_enc, setEnc_enc]
    split <;> simp
  case byteStart =>
    refine ⟨.zero, rfl, by simp, ?_⟩
    by_cases hlt : s.enc.idx.toNat < s.enc.buf.size.toNat <;> simp [tickByteStart, hlt]
  case byte | xor =>
    refine ⟨bitSymbol (s.enc.sr.getLsbD 7), rfl, ?_, fun _ => ⟨rfl, rfl⟩, ?_⟩
    · unfold bitSymbol; split <;> simp
    · simp only [tickByte, tickXor, tickShift, emit_enc, setEnc_enc]
      split <;> simp
  case endBit =>
    refine ⟨.one, rfl, by simp, fun _ => ⟨rfl, rfl⟩, ?_⟩
    simp only [tickEndBit, emit_enc, setEnc_enc]
    split <;> simp
  case cutout1 | cutout2 => exact ⟨.gap, rfl, by simp, fun _ => ⟨rfl, rfl⟩, rfl⟩

/-! ## The mailbox -/

theorem encTick_mbxCnt (s : State) :
    (encTick s).mbxCnt = s.mbxCnt ∨ (s.enc.state = .idle ∧ (encTick s).mbxCnt = s.mbxCnt - 1) := by
  cases h : s.enc.state <;> simp only [encTick, h]
  case idle =>
    simp only [tickIdle, emit_mbxCnt, setEnc_mbxCnt]
    split
    · exact .inl rfl
    · exact .inr ⟨trivial, rfl⟩
  all_goals exact .inl rfl

/-- The mailbox and the last message are as they were. -/
structure SameMailbox (s t : State) : Prop where
  mbx : t.mbx = s.mbx
  src : t.mbxSrc = s.mbxSrc
  last : t.last = s.last
  valid : t.lastValid = s.lastValid

theorem SameMailbox.trans {s t u : State} (h1 : SameMailbox s t) (h2 : SameMailbox t u) : SameMailbox s u :=
  ⟨h2.mbx.trans h1.mbx, h2.src.trans h1.src, h2.last.trans h1.last, h2.valid.trans h1.valid⟩

theorem CoreFrame.sameMailbox {s t : State} (h : CoreFrame s t) : SameMailbox s t ∧ t.mbxCnt = s.mbxCnt := by
  rw [h.rest]
  exact ⟨⟨rfl, rfl, rfl, rfl⟩, rfl⟩

theorem ModeWrite.sameMailbox {s t : State} (h : ModeWrite s t) : SameMailbox s t ∧ t.mbxCnt = s.mbxCnt := by
  cases h <;> exact ⟨⟨rfl, rfl, rfl, rfl⟩, rfl⟩

theorem coreStep_sameMailbox {s t : State} (h : coreStep s = .next t) (hbusy : s.mbxCnt ≠ 0) :
    SameMailbox s t ∧ t.mbxCnt = s.mbxCnt := by
  obtain ⟨a, b, ha, hb, ht⟩ := coreStep_cases (ok := False) False.elim h
  obtain ⟨hsa, hca⟩ : SameMailbox s a ∧ a.mbxCnt = s.mbxCnt :=
    ha.frame.sameMailbox.imp_left fun hm => ⟨hm.mbx, hm.src, hm.last, hm.valid⟩
  obtain ⟨hsb, hcb⟩ : SameMailbox s b ∧ b.mbxCnt = s.mbxCnt := by
    rcases hb with rfl | hb
    · exact ⟨hsa, hca⟩
    · exact ⟨hsa.trans hb.sameMailbox.1, hb.sameMailbox.2.trans hca⟩
  rcases coreDispatch_cases (ok := False) ht with ⟨-, rfl⟩ | ⟨hfree, -⟩
  · exact ⟨hsb, hcb⟩
  · exact absurd (hcb ▸ hfree) hbusy

theorem perform_sameMailbox {e : Event} {s t : State} (h : perform e s = .next t) (hbusy : s.mbxCnt ≠ 0) :
    SameMailbox s t ∧
    (t.mbxCnt = s.mbxCnt ∨ (t.mbxCnt = s.mbxCnt - 1 ∧ e = .encTick ∧ s.enc.state = .idle)) := by
  by_cases hcore : e = .coreStep
  · subst hcore
    exact (coreStep_sameMailbox h hbusy).imp_right .inl
  by_cases htick : e = .encTick
  · subst htick
    cases h
    refine ⟨?_, (encTick_mbxCnt s).imp_right fun ⟨hi, hc⟩ => ⟨hc, rfl, hi⟩⟩
    rw [encTick_frame]
    exact ⟨rfl, rfl, rfl, rfl⟩
  · rw [perform_environment_frame hcore htick h]
    exact ⟨⟨rfl, rfl, rfl, rfl⟩, .inl rfl⟩

/-- Settles O19: a `CORE` step dispatches only into a free mailbox, and of the other transitions only an `IDLE` tick
writes the count. -/
theorem mailboxWrittenOnlyWhenFree : Obligations.MailboxWrittenOnlyWhenFree := by
  unfold Obligations.MailboxWrittenOnlyWhenFree
  intro s t h hbusy
  have he := nextEvent_frame s
  obtain ⟨hm, hc⟩ := perform_sameMailbox h (by rw [he]; exact hbusy)
  rw [he] at hm hc
  refine ⟨hm.mbx, hm.src, hm.last, hm.valid, hc.imp_right fun ⟨hcnt, htick, hidle⟩ => ⟨?_, htick, hidle⟩⟩
  rw [hcnt]
  bv_omega

/-! ## The run-mode -/

theorem coreDispatch_frame {s t : State} (h : coreDispatch s = .next t) :
    t = { s with
      mbx := t.mbx, mbxCnt := t.mbxCnt, mbxSrc := t.mbxSrc, last := t.last, lastValid := t.lastValid, smq := t.smq
      hpq := t.hpq, lpq := t.lpq, rpt := t.rpt, rfCursor := t.rfCursor, rfLevel := t.rfLevel, loco := t.loco } := by
  unfold coreDispatch at h
  split at h
  · obtain ⟨m, n, src, a, ho, -, ha⟩ := organizerDispatch_cases s
    obtain ⟨-, -, rfl⟩ := dispatch_eq_next.mp (ho ▸ h)
    rw [ha]
  · cases h
    rfl

/-- Settles O20: the writes of a `CORE` step leave the rest, and the run-mode moves only by an entry or a return. -/
theorem coreLeavesEncoder : Obligations.CoreLeavesEncoder := by
  unfold Obligations.CoreLeavesEncoder
  intro s t h
  obtain ⟨a, b, ha, hb, ht⟩ := coreStep_cases (ok := False) False.elim h
  obtain ⟨ha, hprior⟩ := ha.frame
  have ht := coreDispatch_frame ht
  rcases hb with rfl | hb
  · rw [ht, ha]
    exact ⟨rfl, rfl, rfl, rfl, rfl, rfl, rfl, rfl, .inl rfl, fun _ => rfl⟩
  cases hb with
  | enter hrun hshort hfree =>
    rw [ha] at hrun hshort hfree ht
    rw [ht]
    refine ⟨rfl, rfl, rfl, rfl, rfl, rfl, rfl, rfl, .inr (.inl ⟨hrun, hfree, rfl, rfl⟩), ?_⟩
    rintro (hs | hs)
    · exact absurd hs hshort
    · dsimp only at hrun; rw [hs] at hrun; cases hrun
  | restore hmode =>
    rw [ha] at hmode ht
    rw [ht]
    refine ⟨rfl, rfl, rfl, rfl, rfl, rfl, rfl, rfl, .inr (.inr ⟨hmode, hprior, rfl⟩), ?_⟩
    dsimp only at hmode
    rw [hmode]
    simp

/-! ## The other transitions and reset -/

/-- Settles O7, transition by transition. -/
theorem otherTransitions : Obligations.OtherTransitions := by
  unfold Obligations.OtherTransitions
  intro s rest
  refine ⟨rfl, fun h => ?_, fun w => ?_, fun m => ?_, fun c hc => ?_, fun _ => rfl, fun _ => rfl⟩
  · cases s
    cases h
    rfl
  · cases s with | mk =>
    rename_i cmd _ _ _ _ _ _ _ _
    cases cmd <;> rfl
  · cases m <;> rfl
  · have hn : modeOfCode c = none := List.getElem?_eq_none (by simpa using hc)
    simp [step, nextEvent, perform, writeRunMode, hn]

theorem live_emptyRing (n : Nat) : (emptyRing n).live = [] := by
  simp [Ring.live, Ring.liveIdx, Ring.count, emptyRing]

theorem Ring.ok_emptyRing {n : Nat} (h : 0 < n) : (emptyRing n).Ok n := ⟨List.length_replicate, h, h⟩

theorem shaped_resetWith {p : Params} (h : p.valid = true) : Shaped (State.resetWith p) := by
  obtain ⟨hsmq, hhpq, hlpq, hloco⟩ := Params.valid_capacities h
  exact ⟨h, Ring.ok_emptyRing (Nat.zero_lt_of_lt hsmq), Ring.ok_emptyRing (Nat.zero_lt_of_lt hhpq),
    Ring.ok_emptyRing (Nat.zero_lt_of_lt hlpq), List.length_replicate, List.length_replicate, hloco,
    refreshLevels_pos p⟩

theorem locoAt_replicate_empty (n i : Nat) : locoAt (List.replicate n emptyLoco) i = emptyLoco :=
  List.getElem?_getD_replicate_default_eq _ _ _

theorem tableOk_resetWith (p : Params) : TableOk (State.resetWith p) := by
  constructor <;> simp only [State.resetWith, locoAt_replicate_empty]
  · exact fun i j _ _ h => absurd rfl h
  · exact fun _ _ => by decide
  · exact fun _ _ => Nat.zero_le _

theorem sizesOk_resetWith (p : Params) : SizesOk (State.resetWith p) := by
  have ring (n : Nat) (m : Message) (h : m ∈ (emptyRing n).slots) : sizeOk m = true := by
    rw [List.eq_of_mem_replicate h]
    exact sizeOk_idleMsg
  refine ⟨ring _, ring _, ring _, fun e he => ?_, sizeOk_idleMsg⟩
  rw [List.eq_of_mem_replicate he]
  exact sizeOk_idleMsg

theorem layersOk_reset : LayersOk Programmer.reset := by
  constructor <;> simp [Programmer.reset]

theorem encoderOk_reset : EncoderOk Encoder.reset := by
  constructor <;> simp [Encoder.reset]

/-- Settles O9, invariant by invariant. -/
theorem resetMeetsInvariants : Obligations.ResetMeetsInvariants := by
  unfold Obligations.ResetMeetsInvariants
  intro p hp
  refine ⟨shaped_resetWith hp, tableOk_resetWith p, layersOk_reset, ⟨.inr rfl, fun h => by cases h⟩,
    sizesOk_resetWith p, encoderOk_reset, sizeOk_idleMsg, ?_, ?_⟩
  · intro i j x y hx
    have := live_emptyRing p.lpqSize
    simp [State.resetWith, this] at hx
  · intro i j x y hx _ hc
    rw [List.eq_of_mem_replicate (List.mem_of_getElem? hx)] at hc
    exact absurd rfl hc

end Sys2Proof.Machine
end

section
/-! SUPPORT. A ring queue as a bounded first-in first-out queue (10_state R30, R31). -/

namespace Sys2Proof.Machine

/-! ## A ring as a queue (10_state R30) -/

theorem mod_of_lt_two_mul {a n : Nat} (h : a < 2 * n) : a % n = if a < n then a else a - n := by
  split
  next hlt => exact Nat.mod_eq_of_lt hlt
  next hge => rw [Nat.mod_eq_sub_mod (by omega), Nat.mod_eq_of_lt (by omega)]

section Ring

variable {n : Nat} {q : Ring}

theorem Ring.count_eq (h : q.Ok n) : q.count = if q.rd ≤ q.wr then q.wr - q.rd else q.wr + n - q.rd := by
  obtain ⟨hl, hr, hw⟩ := h
  rw [Ring.count, hl, mod_of_lt_two_mul (by omega)]
  split <;> split <;> omega

theorem Ring.slot_eq (h : q.Ok n) {k : Nat} (hk : k < n) :
    (q.rd + k) % n = if q.rd + k < n then q.rd + k else q.rd + k - n :=
  mod_of_lt_two_mul (by have := h.2.1; omega)

theorem Ring.next_eq (h : q.Ok n) : (q.wr + 1) % n = if q.wr + 1 < n then q.wr + 1 else 0 := by
  obtain ⟨-, -, hw⟩ := h
  rw [mod_of_lt_two_mul (by omega)]
  split <;> omega

theorem Ring.count_lt (h : q.Ok n) : q.count < n := by
  rw [Ring.count_eq h]
  obtain ⟨-, hr, hw⟩ := h
  split <;> omega

theorem Ring.empty_iff_count (h : q.Ok n) : q.empty = true ↔ q.count = 0 := by
  rw [Ring.count_eq h, Ring.empty, beq_iff_eq]
  obtain ⟨-, hr, hw⟩ := h
  split <;> omega

theorem Ring.full_iff_count (h : q.Ok n) : q.full = true ↔ q.count = n - 1 := by
  rw [Ring.count_eq h, Ring.full, h.1, Ring.next_eq h, beq_iff_eq]
  obtain ⟨-, hr, hw⟩ := h
  split <;> split <;> omega

/-- The live entries are the slots from `rd` on, `count` of them. -/
theorem Ring.live_eq_map (h : q.Ok n) :
    q.live = (List.range q.count).map fun k => q.slots.getD ((q.rd + k) % n) idleMsg := by
  obtain ⟨hl, hr, hw⟩ := h
  have hit (k : Nat) : q.slots[(q.rd + k) % n]? = some (q.slots.getD ((q.rd + k) % n) idleMsg) := by
    have hlt : (q.rd + k) % n < q.slots.length := hl ▸ Nat.mod_lt _ (by omega)
    simp [hlt]
  simp only [Ring.live, Ring.liveIdx, List.filterMap_map, Function.comp_def, hl, hit]
  exact congrFun List.filterMap_eq_map' _

theorem Ring.length_live (h : q.Ok n) : q.live.length = q.count := by
  simp [Ring.live_eq_map h]

theorem Ring.empty_iff_live (h : q.Ok n) : q.empty = true ↔ q.live = [] := by
  rw [Ring.empty_iff_count h, ← Ring.length_live h, List.length_eq_zero_iff]

theorem Ring.slot_injective (h : q.Ok n) {j k : Nat} (hj : j < n) (hk : k < n)
    (hjk : (q.rd + j) % n = (q.rd + k) % n) : j = k := by
  rw [Ring.slot_eq h hj, Ring.slot_eq h hk] at hjk
  split at hjk <;> split at hjk <;> omega

/-- The slot after the live entries is the one the next push writes. -/
theorem Ring.slot_count (h : q.Ok n) : (q.rd + q.count) % n = q.wr := by
  rw [Ring.slot_eq h (Ring.count_lt h), Ring.count_eq h]
  obtain ⟨-, hr, hw⟩ := h
  split <;> split <;> omega

theorem Ring.count_push {q' : Ring} {m : Message} (h : q.Ok n) (hp : q.push m = some q') : q'.count = q.count + 1 := by
  have hok := Ring.push_ok h hp
  obtain ⟨hf, rfl⟩ := Ring.push_eq_some.mp hp
  have hn : q.count ≠ n - 1 := fun hc => by simp [(Ring.full_iff_count h).mpr hc] at hf
  have hnext := Ring.next_eq h
  rw [Ring.count_eq hok]
  rw [Ring.count_eq h] at hn ⊢
  simp only [h.1, hnext]
  obtain ⟨-, hr, hw⟩ := h
  split at hn <;> split <;> split <;> simp_all <;> omega

theorem Ring.live_push {q' : Ring} {m : Message} (h : q.Ok n) (hp : q.push m = some q') : q'.live = q.live ++ [m] := by
  have hok := Ring.push_ok h hp
  have hcount := Ring.count_push h hp
  have hlt := Ring.count_lt h
  obtain ⟨-, rfl⟩ := Ring.push_eq_some.mp hp
  rw [Ring.live_eq_map hok, Ring.live_eq_map h, hcount, List.range_succ, List.map_append]
  congr 1
  · refine List.map_congr_left fun k hk => ?_
    have hk : k < q.count := List.mem_range.mp hk
    have hne : q.wr ≠ (q.rd + k) % n := fun he =>
      absurd (Ring.slot_injective h (hk.trans hlt) hlt (he.symm.trans (Ring.slot_count h).symm)) hk.ne
    simp [List.getElem?_set_ne hne]
  · have hw : q.wr < q.slots.length := h.1 ▸ h.2.2
    simp [Ring.slot_count h, hw]

theorem Ring.head_eq_live (h : q.Ok n) : q.head = q.live.head? := by
  cases he : q.empty with
  | true => simp [Ring.head, he, (Ring.empty_iff_live h).mp he]
  | false =>
    obtain ⟨c, hc⟩ : ∃ c, q.count = c + 1 :=
      Nat.exists_eq_succ_of_ne_zero fun h0 => by simp [(Ring.empty_iff_count h).mpr h0] at he
    obtain ⟨hl, hr, hw⟩ := h
    simp [Ring.live_eq_map ⟨hl, hr, hw⟩, Ring.head, he, hc, List.range_succ_eq_map, Nat.mod_eq_of_lt hr, hl, hr]

theorem Ring.count_pop (h : q.Ok n) (he : q.empty = false) : q.pop.count = q.count - 1 := by
  have hne : q.rd ≠ q.wr := by simpa [Ring.empty] using he
  have hnext : q.pop.rd = if q.rd + 1 < n then q.rd + 1 else 0 := by
    obtain ⟨hl, hr, -⟩ := h
    change (q.rd + 1) % q.slots.length = _
    rw [hl, mod_of_lt_two_mul (by omega)]
    split <;> omega
  have hwr : q.pop.wr = q.wr := rfl
  rw [Ring.count_eq (Ring.pop_ok h), Ring.count_eq h, hnext, hwr]
  obtain ⟨-, hr, hw⟩ := h
  split <;> split <;> split <;> omega

theorem Ring.live_pop (h : q.Ok n) (he : q.empty = false) : q.pop.live = q.live.tail := by
  obtain ⟨c, hc⟩ : ∃ c, q.count = c + 1 :=
    Nat.exists_eq_succ_of_ne_zero fun h0 => by simp [(Ring.empty_iff_count h).mpr h0] at he
  have hcount : q.pop.count = c := by rw [Ring.count_pop h he, hc]; rfl
  rw [Ring.live_eq_map (Ring.pop_ok h), Ring.live_eq_map h, hcount, hc, List.range_succ_eq_map]
  simp only [List.map_cons, List.tail_cons, List.map_map]
  refine List.map_congr_left fun k _ => ?_
  simp [Ring.pop, h.1, Nat.add_right_comm, Nat.add_assoc]

theorem Ring.live_replace {k : Nat} {m : Message} (h : q.Ok n) (hk : k < q.count) :
    (q.replace ((q.rd + k) % n) m).live = q.live.set k m := by
  have hlt := Ring.count_lt h
  rw [Ring.live_eq_map (Ring.replace_ok _ m h), Ring.live_eq_map h]
  refine List.ext_getElem (by simp [Ring.replace, Ring.count]) fun j _ hj => ?_
  have hj : j < q.count := by simpa using hj
  have hslot : (q.rd + j) % n < q.slots.length := by rw [h.1]; exact Nat.mod_lt _ (by omega)
  rw [List.getElem_set]
  split
  next hkj => subst hkj; simp [Ring.replace, hslot]
  next hkj =>
    have hne : (q.rd + k) % n ≠ (q.rd + j) % n := fun he =>
      hkj (Ring.slot_injective h (hk.trans hlt) (hj.trans hlt) he)
    simp [Ring.replace, List.getElem?_set_ne hne]

end Ring

/-- Settles O28: the live entries are the `count` slots from `rd` on, and each operation moves one end of them. -/
theorem ringIsBoundedFifo : Obligations.RingIsBoundedFifo := by
  unfold Obligations.RingIsBoundedFifo
  intro n q m h
  refine ⟨Ring.length_live h, Nat.le_sub_one_of_lt (Ring.count_lt h), Ring.empty_iff_live h, Ring.full_iff_count h,
    Ring.push_eq_none.mpr, fun hf => ?_, Ring.head_eq_live h, fun he => ⟨Ring.pop_ok h, Ring.live_pop h he⟩,
    fun k hk => ⟨Ring.replace_ok _ m h, Ring.live_replace h hk⟩⟩
  have hp := Ring.push_eq_some (m := m).mpr ⟨hf, rfl⟩
  exact ⟨_, hp, Ring.push_ok h hp, Ring.live_push h hp⟩

end Sys2Proof.Machine
end

section
/-! SUPPORT. Why each part of a step may stop: no command stops, `prog_step` stops only in a `SEQ_PC` that its task does not
list, the dispatch only on a message of an illegal size, a write of the run-mode only on an unused code. -/

namespace Sys2Proof.Machine

/-! ## Reasons to stop -/

/-- The outcome is no refusal, and a fault only for a reason that `P` allows. -/
def StopsOnlyBy (P : Fault → Prop) : Result → Prop
  | .next _ => True
  | .fault f => P f
  | .refused _ => False

/-- The sequence layer's fault in a `SEQ_PC` that the running task does not list (93_implementation_defined I9). -/
def SequenceFault (f : Fault) : Prop := ∃ op pc, f = .unlistedSeqPc op pc

/-- The mailbox's fault on a message of an illegal size (20_memory R63). -/
def SizeFault (f : Fault) : Prop := ∃ m, f = .badSize m

/-- The fault of a run-mode write with an unused code (10_state R22). -/
def ModeFault (f : Fault) : Prop := ∃ c, f = .badRunMode c

section Outcome

variable {P Q : Fault → Prop}

@[simp] theorem stopsOnlyBy_next (s : State) : StopsOnlyBy P (.next s) := trivial

theorem stopsOnlyBy_unlisted (s : State) : StopsOnlyBy SequenceFault (unlisted s) := ⟨_, _, rfl⟩

theorem StopsOnlyBy.mono {o : Result} (hPQ : ∀ f, P f → Q f) (h : StopsOnlyBy P o) : StopsOnlyBy Q o := by
  cases o with
  | next => trivial
  | fault f => exact hPQ f h
  | refused => exact h

theorem stopsOnlyBy_ite {c : Prop} [Decidable c] {a b : Result} (ha : StopsOnlyBy P a) (hb : StopsOnlyBy P b) :
    StopsOnlyBy P (if c then a else b) := by
  split
  · exact ha
  · exact hb

/-- A guarded answer stops only where its alternative does. -/
theorem StopsOnlyBy.ite_next {c : Prop} [Decidable c] {t : State} {o : Result} (ho : StopsOnlyBy P o) :
    StopsOnlyBy P (if c then .next t else o) :=
  stopsOnlyBy_ite (stopsOnlyBy_next t) ho

theorem StopsOnlyBy.andThen {o : Result} {f : State → Result} (ho : StopsOnlyBy P o) (hf : ∀ s, StopsOnlyBy P (f s)) :
    StopsOnlyBy P (andThen o f) := by
  cases o with
  | next s => exact hf s
  | fault => exact ho
  | refused => exact ho

theorem StopsOnlyBy.of_fault {o : Result} {f : Fault} (h : StopsOnlyBy P o) (ho : o = .fault f) : P f := by
  rw [ho] at h
  exact h

theorem StopsOnlyBy.ne_refused {o : Result} (h : StopsOnlyBy P o) (r : Refusal) : o ≠ .refused r := by
  rintro rfl
  exact h

end Outcome

/-! ## The commands (42_organizer R203) -/

theorem execLocoSpeed_answers (a : LocoAddr) (v : Byte) (s : State) : ∃ t, execLocoSpeed a v s = .next t := by
  simp only [execLocoSpeed]
  split <;> exact ⟨_, rfl⟩

theorem execLocoForget_answers (a : LocoAddr) (s : State) : ∃ t, execLocoForget a s = .next t := by
  unfold execLocoForget
  split <;> exact ⟨_, rfl⟩

theorem execBcastStop_answers (e : Bool) (s : State) : ∃ t, execBcastStop e s = .next t := by
  simp only [execBcastStop]
  split <;> exact ⟨_, rfl⟩

theorem start_answers (op : TaskOp) (a : TaskArgs) (s : State) : ∃ t, start op a s = .next t := by
  unfold start
  split <;> exact ⟨_, rfl⟩

theorem execProgTerminate_answers (s : State) : ∃ t, execProgTerminate s = .next t := by
  unfold execProgTerminate
  split <;> exact ⟨_, rfl⟩

/-- Every command answers a next state, in every state. -/
theorem exec_answers (i : Instr) (s : State) : ∃ t, exec i s = .next t := by
  cases i with
  | locoSpeed a v => exact execLocoSpeed_answers a v s
  | locoFgrp1 | locoFgrp2 | locoFgrp3 | locoFgrp4 | locoFgrp5 => exact ⟨_, rfl⟩
  | locoForget a => exact execLocoForget_answers a s
  | bcastStop e => exact execBcastStop_answers e s
  | accBasic | accExt | pomLocoWrbyte | pomLocoWrbit | pomLocoVerify | pomAccWrbyte | fastClock => exact ⟨_, rfl⟩
  | queryReady | findActive | nextActive | prevActive => exact ⟨_, rfl⟩
  | progRegRead | progRegWrite | progPagedRead | progPagedWrite | progDirectRead | progDirectWrite
  | progDirectBitWrite | progDirectBitVerify | progLongaddrRead | progLongaddrWrite | progQueryBitcap =>
    exact start_answers _ _ s
  | progTerminate => exact execProgTerminate_answers s
  | progStatus | progValue => exact ⟨_, rfl⟩

theorem runCommand_answers (w : Option CmdWord) (s : State) : ∃ t, runCommand w s = .next t := by
  unfold runCommand
  split
  · exact ⟨_, rfl⟩
  · split
    · exact ⟨_, rfl⟩
    · exact exec_answers _ s

/-! ## `prog_step` (43_programmer R264) -/

theorem stopsOnlyBy_seqIssue (s : State) : StopsOnlyBy SequenceFault (seqIssue s) := by
  have stop := stopsOnlyBy_unlisted s
  unfold seqIssue
  dsimp only
  rcases s.prog.seqOp with _ | op
  · exact stop
  cases op
  case regRead | regWrite | directRead | directWrite | bitWrite | bitVerify | queryBitcap => exact stop.ite_next
  case pagedRead | pagedWrite => exact stop.ite_next.ite_next
  case longaddrRead => exact stop.ite_next.ite_next.ite_next.ite_next
  case longaddrWrite => exact stop.ite_next.ite_next.ite_next.ite_next.ite_next

theorem stopsOnlyBy_seqResult (r : ByteRes) (v : Byte) (s : State) : StopsOnlyBy SequenceFault (seqResult r v s) := by
  have stop := stopsOnlyBy_unlisted s
  have readOk : StopsOnlyBy SequenceFault (longaddrReadOk v s) := stop.ite_next.ite_next.ite_next.ite_next
  have writeOk : StopsOnlyBy SequenceFault (longaddrWriteOk s) := stop.ite_next.ite_next.ite_next.ite_next.ite_next
  unfold seqResult
  dsimp only
  rcases s.prog.seqOp with _ | op
  · exact stop
  cases op
  case regRead | regWrite | directRead | directWrite | bitWrite | bitVerify | queryBitcap => exact stop.ite_next
  case pagedRead | pagedWrite => exact stop.ite_next.ite_next
  case longaddrRead => exact stopsOnlyBy_ite readOk stop.ite_next
  case longaddrWrite => exact stopsOnlyBy_ite writeOk stop.ite_next

theorem stopsOnlyBy_seqStep (s : State) : StopsOnlyBy SequenceFault (seqStep s) :=
  stopsOnlyBy_ite (stopsOnlyBy_seqResult _ _ _) (stopsOnlyBy_seqIssue s)

theorem stopsOnlyBy_layerStep (s : State) : StopsOnlyBy SequenceFault (layerStep s) := by
  have upper : StopsOnlyBy SequenceFault (if s.prog.byteBusy then .next (byteStep s) else seqStep s) :=
    (stopsOnlyBy_seqStep s).ite_next
  cases hi : s.prog.innerState <;> simp only [layerStep, hi]
  case pre | cmd | wait | post => exact stopsOnlyBy_next _
  case idle | done => exact upper

theorem stopsOnlyBy_progAct (s : State) : StopsOnlyBy SequenceFault (progAct s) := by
  cases hs : s.prog.seqState <;> simp only [progAct, hs]
  case idle | enter | exit => exact stopsOnlyBy_next _
  case step => exact stopsOnlyBy_layerStep s

/-- `prog_step` stops only in the sequence layer. -/
theorem stopsOnlyBy_progStep (s : State) : StopsOnlyBy SequenceFault (progStep s) := by
  cases hs : s.prog.seqState <;> simp only [progStep, hs]
  case idle => exact stopsOnlyBy_next s
  case enter | step => exact stopsOnlyBy_progAct (modeCheck s)
  case exit => exact stopsOnlyBy_progAct s

/-! ## The dispatch and the whole step (20_memory R65, R66) -/

/-- A dispatch into a free mailbox stops only on a bad size. -/
theorem stopsOnlyBy_dispatch {m : Message} {n : Byte} {src : MbxSrc} {s : State} (hfree : s.mbxCnt = 0) :
    StopsOnlyBy SizeFault (dispatch m n src s) := by
  cases ho : dispatch m n src s with
  | next => trivial
  | fault f =>
    rcases dispatch_eq_fault.mp ho with ⟨hbusy, -⟩ | ⟨-, -, rfl⟩
    · exact absurd hfree hbusy
    · exact ⟨m, rfl⟩
  | refused => exact dispatch_not_refused ho

/-- The guard of the `CORE` step lets the selection at a free mailbox only, and the selection leaves the count until its
one dispatch. -/
theorem stopsOnlyBy_coreDispatch (s : State) : StopsOnlyBy SizeFault (coreDispatch s) := by
  unfold coreDispatch
  split
  next hfree =>
    obtain ⟨m, n, src, a, ho, -, ha⟩ := organizerDispatch_cases s
    have hafree : a.mbxCnt = 0 := by rw [ha]; exact hfree
    rw [ho]
    exact stopsOnlyBy_dispatch hafree
  next => exact stopsOnlyBy_next s

/-- A `CORE` step stops in the sequence layer or on a bad size. -/
theorem stopsOnlyBy_coreStep (s : State) : StopsOnlyBy (fun f => SequenceFault f ∨ SizeFault f) (coreStep s) := by
  obtain ⟨t, ht⟩ := runCommand_answers s.cmd { s with cmd := none }
  rw [coreStep, ht, andThen_next]
  exact ((stopsOnlyBy_progStep t).mono fun _ => .inl).andThen fun u =>
    (stopsOnlyBy_coreDispatch u).mono fun _ => .inr

theorem stopsOnlyBy_writeRunMode (c : BitVec 4) (s : State) : StopsOnlyBy ModeFault (writeRunMode c s) := by
  unfold writeRunMode
  split
  · exact stopsOnlyBy_next _
  · exact ⟨c, rfl⟩

/-- A step stops in the sequence layer, on a bad size or on a bad run-mode code, and by nothing else. -/
theorem stopsOnlyBy_step (s : State) :
    StopsOnlyBy (fun f => (SequenceFault f ∨ SizeFault f) ∨ ModeFault f) (step s) := by
  unfold step
  cases (nextEvent s).1 with
  | coreStep => exact (stopsOnlyBy_coreStep _).mono fun _ => .inl
  | statusWrite c => exact (stopsOnlyBy_writeRunMode c _).mono fun _ => .inr
  | encTick | hostOffer | cutoutInput | clockAdvance => exact stopsOnlyBy_next _

/-- Settles O17: the reasons a step can stop for leave out the race and every refusal. -/
theorem stepNeverRacesNorRefuses : Obligations.StepNeverRacesNorRefuses := by
  unfold Obligations.StepNeverRacesNorRefuses
  refine fun s => ⟨fun m h => ?_, (stopsOnlyBy_step s).ne_refused⟩
  obtain (⟨_, _, hf⟩ | ⟨_, hf⟩) | ⟨_, hf⟩ := (stopsOnlyBy_step s).of_fault h <;> cases hf

end Sys2Proof.Machine
end

section
/-! SUPPORT. Encoding (30_encoding R80 to R86): decoding undoes the encoder, and the encoder undoes decoding. -/

namespace Sys2Proof

/-! ## What a word must have to spell a command (30_encoding R86) -/

/-- The checks of 30_encoding R86, which a word passes exactly when it spells a command. -/
theorem decode_eq_ok_iff {ext : Bool} {w : CmdWord} {i : Instr} :
    decode ext w = .ok i ↔ ∃ o : Op, o.code = (fieldsOf w).op ∧ (o.needsExt = true → ext = true) ∧
      (fieldsOf w).rsv = 0 ∧ o.unusedZero (fieldsOf w) = true ∧ o.operands (fieldsOf w) = some i := by
  constructor
  · intro h
    obtain ⟨o, ho, h⟩ := decode_eq_ok h
    exact ⟨o, Op.code_of_ofCode ho, h⟩
  · rintro ⟨o, ho, hext, hrsv, hzero, hi⟩
    have hcode : Op.ofCode (fieldsOf w).op = some o := ho ▸ Op.ofCode_code o
    have hneed : (o.needsExt && !ext) = false := by cases hn : o.needsExt <;> simp_all
    simp [decode, decodeFields, hcode, hneed, hrsv, hzero, hi]

/-! ## Decoding after encoding -/

/-- Fields the opcode of a command does not use are 0 in its word. -/
theorem Instr.unusedZero_fields (i : Instr) : i.op.unusedZero i.fields = true := by
  cases i <;> rfl

/-- The operands of `FAST_CLOCK` come back from its fields. -/
theorem fastClockOf_fields {ext : Bool} {mn : BitVec 6} {h : BitVec 5} {wd : BitVec 3} {r : BitVec 6}
    (hw : (Instr.fastClock mn h wd r).wellFormed ext = true) :
    fastClockOf (Instr.fastClock mn h wd r).fields = some (.fastClock mn h wd r) := by
  simp only [Instr.wellFormed, Bool.and_eq_true, decide_eq_true_eq] at hw
  obtain ⟨⟨hmn, hh⟩, hwd⟩ := hw
  have hlo : (r.setWidth 8 ++ wd.setWidth 8 : BitVec 16).extractLsb' 0 8 = wd.setWidth 8 :=
    BitVec.extractLsb'_append_eq_right
  have hhi : (r.setWidth 8 ++ wd.setWidth 8 : BitVec 16).extractLsb' 8 8 = r.setWidth 8 :=
    BitVec.extractLsb'_append_eq_left
  have hwd' : (r.setWidth 8 ++ wd.setWidth 8 : BitVec 16).setWidth 3 = wd := by
    rw [BitVec.setWidth_append, dif_pos (by decide)]
    simp
  have hr : (r.setWidth 8 ++ wd.setWidth 8 : BitVec 16).extractLsb' 8 6 = r := by
    rw [BitVec.extractLsb'_append_eq_of_le (by decide), Nat.sub_self, ← BitVec.setWidth_eq_extractLsb' (by decide)]
    simp
  have : r.toNat < 64 := r.isLt
  simp [fastClockOf, Instr.fields, Instr.dataField, Instr.auxField, Instr.addrField, hlo, hhi, hwd', hr]
  omega

/-- The operands of a well-formed command come back from its fields. -/
theorem operands_fields {ext : Bool} {i : Instr} (h : i.wellFormed ext = true) :
    i.op.operands i.fields = some i := by
  cases i
  case fastClock => exact fastClockOf_fields h
  all_goals
    simp only [Instr.wellFormed, Bool.and_eq_true, decide_eq_true_eq] at h
    simp [Op.operands, Instr.op, Instr.fields, Instr.addrField, Instr.cvFieldOf, Instr.dataField, Instr.auxField,
      lowBits_setWidth, locoAddrOf_setWidth, locoAddrOrZeroOf_setWidth, h]

/-- A well-formed command's opcode exists for this `EXT_FUNCS`. -/
theorem ext_of_needsExt {ext : Bool} {i : Instr} (h : i.wellFormed ext = true) (hn : i.op.needsExt = true) :
    ext = true := by
  cases i <;> simp_all [Instr.op, Op.needsExt, Instr.wellFormed]

theorem decode_encode {ext : Bool} {i : Instr} (h : i.wellFormed ext = true) : decode ext (encode i) = .ok i := by
  refine decode_eq_ok_iff.mpr ⟨i.op, ?_⟩
  simp only [fieldsOf_encode]
  exact ⟨rfl, ext_of_needsExt h, rfl, i.unusedZero_fields, operands_fields h⟩

/-- Settles O1: a word built from a well-formed command passes every check of the decoder. -/
theorem decodeEncodeRoundTrip : Obligations.DecodeEncodeRoundTrip := by
  unfold Obligations.DecodeEncodeRoundTrip
  exact fun _ _ => decode_encode

/-- Settles O3, by running the decoder on each word. -/
theorem knownWordsDecode : Obligations.KnownWordsDecode := by
  unfold Obligations.KnownWordsDecode
  decide

/-! ## Encoding after decoding -/

theorem locoAddrOf_eq_some_iff {x : BitVec 16} {a : LocoAddr} :
    locoAddrOf x = some a ↔ x = a.setWidth 16 ∧ LocoAddr.legal a = true := by
  refine ⟨fun h => ⟨?_, legal_of_locoAddrOf h⟩, fun ⟨hx, ha⟩ => hx ▸ locoAddrOf_setWidth ha⟩
  unfold locoAddrOf at h
  split at h <;> cases h
  bv_omega

theorem locoAddrOrZeroOf_eq_some_iff {x : BitVec 16} {a : LocoAddr} :
    locoAddrOrZeroOf x = some a ↔ x = a.setWidth 16 ∧ a.toNat ≤ 10239 := by
  refine ⟨fun h => ⟨?_, le_of_locoAddrOrZeroOf h⟩, fun ⟨hx, ha⟩ => hx ▸ locoAddrOrZeroOf_setWidth ha⟩
  unfold locoAddrOrZeroOf at h
  split at h <;> cases h
  bv_omega

theorem cvAddrOf_eq_some_iff {x : BitVec 16} {c : CvAddr} : cvAddrOf x = some c ↔ x = cvField c := by
  refine ⟨fun h => ?_, fun hx => hx ▸ cvAddrOf_cvField c⟩
  unfold cvAddrOf at h
  split at h <;> cases h
  unfold cvField
  bv_omega

theorem regIdxOf_eq_some_iff {x : BitVec 16} {r : RegIdx} : regIdxOf x = some r ↔ x = regField r := by
  refine ⟨fun h => ?_, fun hx => hx ▸ regIdxOf_regField r⟩
  unfold regIdxOf at h
  split at h <;> cases h
  unfold regField
  bv_omega

theorem lowBits_eq_some_iff {n m : Nat} (hnm : n ≤ m) {x : BitVec m} {v : BitVec n} :
    lowBits n x = some v ↔ x = v.setWidth m := by
  refine ⟨fun h => ?_, fun hx => hx ▸ lowBits_setWidth hnm v⟩
  unfold lowBits at h
  split at h <;> cases h
  next hlt => exact BitVec.eq_of_toNat_eq (by simp [Nat.mod_eq_of_lt hlt])

theorem auxFlag_eq_some_iff {x : Byte} {b : Bool} : auxFlag x = some b ↔ x = flagAux b := by
  revert x b
  decide

theorem auxBit_eq_some_iff {x : Byte} {p : BitPos × Bool} : auxBit x = some p ↔ x = bitAux p.1 p.2 := by
  revert x p
  decide

/-- The `ADDR` of a clock word is its ratio above its weekday. -/
theorem clockAddr_eq {x : BitVec 16} (hw : (x.extractLsb' 0 8).toNat ≤ 6) (hr : (x.extractLsb' 8 8).toNat ≤ 63) :
    ((x.extractLsb' 8 6).setWidth 8 ++ (x.setWidth 3).setWidth 8 : BitVec 16) = x := by
  have hlo : (x.setWidth 3).setWidth 8 = x.extractLsb' 0 8 := by
    apply BitVec.eq_of_toNat_eq
    simp at *
    omega
  have hhi : (x.extractLsb' 8 6).setWidth 8 = x.extractLsb' 8 8 := by
    apply BitVec.eq_of_toNat_eq
    simp at *
    omega
  rw [hlo, hhi]
  exact BitVec.extractLsb'_append_extractLsb' (w := 8) (len := 8)

theorem fields_of_fastClockOf {f : CmdFields} {i : Instr} (h : fastClockOf f = some i)
    (hop : Op.fastClock.code = f.op) (hrsv : f.rsv = 0) (hzero : Op.fastClock.unusedZero f = true) : i.fields = f := by
  obtain ⟨op, addr, cv, data, aux, rsv⟩ := f
  unfold fastClockOf at h
  split at h <;> cases h
  next hr =>
  obtain ⟨hmin, hhour, hwday, hratio⟩ := hr
  have hdata : (data.setWidth 6).setWidth 8 = data := by bv_omega
  have haux : (aux.setWidth 5).setWidth 8 = aux := by bv_omega
  obtain rfl : cv = 0 := by simpa [Op.unusedZero, Op.usesAddr, Op.usesCv, Op.usesData, Op.usesAux] using hzero
  obtain rfl : rsv = 0 := hrsv
  simp [Instr.fields, Instr.op, Instr.addrField, Instr.cvFieldOf, Instr.dataField, Instr.auxField, hdata, haux,
    clockAddr_eq hwday hratio, hop]

/-- A word that passes the checks of 30_encoding R86 has the fields of the command it spells. -/
theorem fields_of_operands {o : Op} {f : CmdFields} {i : Instr} (h : o.operands f = some i) (hop : o.code = f.op)
    (hrsv : f.rsv = 0) (hzero : o.unusedZero f = true) : i.fields = f := by
  cases o
  case fastClock => exact fields_of_fastClockOf h hop hrsv hzero
  all_goals
    obtain ⟨op, addr, cv, data, aux, rsv⟩ := f
    obtain rfl : _ = op := hop
    obtain rfl : rsv = 0 := hrsv
    simp only [Op.unusedZero, Op.usesAddr, Op.usesCv, Op.usesData, Op.usesAux, Bool.true_or, Bool.false_or,
      Bool.true_and, Bool.and_true, Bool.and_eq_true, beq_iff_eq] at hzero
    simp only [hzero, Op.operands, Option.bind_eq_bind, Option.bind_eq_some_iff, Option.pure_def, Option.some.injEq,
      locoAddrOf_eq_some_iff, locoAddrOrZeroOf_eq_some_iff, cvAddrOf_eq_some_iff, regIdxOf_eq_some_iff,
      lowBits_eq_some_iff, auxFlag_eq_some_iff, auxBit_eq_some_iff, Nat.reduceLeDiff] at h ⊢
  case locoSpeed | locoFgrp4 | locoFgrp5 | locoForget | findActive | nextActive | prevActive | progLongaddrWrite =>
    obtain ⟨a, ⟨rfl, -⟩, rfl⟩ := h
    rfl
  case locoFgrp1 | locoFgrp2 | locoFgrp3 | pomLocoWrbyte | pomLocoVerify =>
    obtain ⟨a, ⟨rfl, -⟩, x, rfl, rfl⟩ := h
    rfl
  case pomLocoWrbit =>
    obtain ⟨p, rfl, a, ⟨rfl, -⟩, c, rfl, rfl⟩ := h
    rfl
  case accBasic | accExt | pomAccWrbyte | progDirectBitWrite | progDirectBitVerify =>
    obtain ⟨x, rfl, y, rfl, rfl⟩ := h
    rfl
  case bcastStop | progRegRead | progRegWrite | progPagedRead | progPagedWrite | progDirectRead | progDirectWrite =>
    obtain ⟨x, rfl, rfl⟩ := h
    rfl
  all_goals
    cases h
    rfl

theorem encode_of_decode {ext : Bool} {w : CmdWord} {i : Instr} (h : decode ext w = .ok i) : encode i = w := by
  obtain ⟨o, hop, -, hrsv, hzero, hi⟩ := decode_eq_ok_iff.mp h
  rw [encode, fields_of_operands hi hop hrsv hzero, wordOf_fieldsOf]

/-- Settles O2: the decoder reads every field of the word it accepts. -/
theorem decodedWordIsEncoded : Obligations.DecodedWordIsEncoded := by
  unfold Obligations.DecodedWordIsEncoded
  exact fun _ _ _ h => ⟨wellFormed_of_decode h, encode_of_decode h⟩

end Sys2Proof
end

section
/-! SUPPORT. A command written with its named operands assembles to its word (30_encoding R87). -/

namespace Sys2Proof

/-! ## A value in a field (30_encoding R83) -/

theorem fitField_zero (n : Nat) : fitField n 0 = some 0 := by
  simp [fitField]

theorem fitField_toNat {n k : Nat} (x : BitVec k) (h : k ≤ n) : fitField n x.toNat = some (x.setWidth n) := by
  have hlt : x.toNat < 2 ^ n := lt_of_lt_of_le x.isLt (Nat.pow_le_pow_right (by decide) h)
  simp [fitField, hlt]

/-- A number written 1-based, as CVs and registers are. -/
theorem fitField_succ {n k : Nat} (x : BitVec k) (h : k < n) : fitField n (x.toNat + 1) = some (x.setWidth n + 1) := by
  have hlt : x.toNat + 1 < 2 ^ n := lt_of_le_of_lt x.isLt (Nat.pow_lt_pow_right (by decide) h)
  rw [fitField, if_pos hlt, BitVec.ofNat_add, BitVec.ofNat_toNat]
  rfl

/-- `AUX` of a bit operation, its value written above its position. -/
theorem fitField_bit (b : BitPos) (v : Bool) :
    ((fitField 1 v.toNat).bind fun x => (fitField 3 b.toNat).bind fun y => some ((x ++ y : BitVec 4).setWidth 8)) =
      some (bitAux b v) := by
  revert b v
  decide

theorem fitField_flag (b : Bool) : fitField 8 b.toNat = some (flagAux b) := by
  cases b <;> rfl

/-! ## The fields a written command fills (30_encoding R84) -/

theorem assembleAddr_namedOperands (i : Instr) :
    assembleAddr i.op (operandValue i.namedOperands) = some i.addrField := by
  cases i
  case progRegRead r | progRegWrite r _ => exact fitField_succ r (by decide)
  case fastClock mn h wd r =>
    have hr : fitField 8 r.toNat = some (r.setWidth 8) := fitField_toNat r (by decide)
    have hwd : fitField 8 wd.toNat = some (wd.setWidth 8) := fitField_toNat wd (by decide)
    show (fitField 8 r.toNat).bind (fun x => (fitField 8 wd.toNat).bind fun y => some (x ++ y)) = _
    rw [hr, hwd]
    rfl
  case locoSpeed a _ | locoFgrp1 a _ | locoFgrp2 a _ | locoFgrp3 a _ | locoFgrp4 a _ | locoFgrp5 a _ | locoForget a
    | findActive a | nextActive a | prevActive a | progLongaddrWrite a | pomLocoWrbyte a _ _ | pomLocoWrbit a _ _ _
    | pomLocoVerify a _ _ => exact fitField_toNat a (by decide)
  case accBasic x _ => exact fitField_toNat x (by decide)
  case accExt x _ => exact fitField_toNat x (by decide)
  case pomAccWrbyte x _ _ => exact fitField_toNat x (by decide)
  all_goals exact fitField_zero 16

theorem assembleCv_namedOperands (i : Instr) : fitField 16 (operandValue i.namedOperands .cv) = some i.cvFieldOf := by
  cases i
  case pomLocoWrbyte _ c _ | pomLocoWrbit _ c _ _ | pomLocoVerify _ c _ | pomAccWrbyte _ c _ | progPagedRead c
    | progPagedWrite c _ | progDirectRead c | progDirectWrite c _ | progDirectBitWrite c _ _
    | progDirectBitVerify c _ _ => exact fitField_succ c (by decide)
  all_goals exact fitField_zero 16

theorem assembleData_namedOperands (i : Instr) :
    assembleData i.op (operandValue i.namedOperands) = some i.dataField := by
  cases i
  case locoSpeed _ d | locoFgrp4 _ d | locoFgrp5 _ d | progRegWrite _ d | progPagedWrite _ d | progDirectWrite _ d
    | pomLocoWrbyte _ _ d | pomLocoVerify _ _ d | pomAccWrbyte _ _ d =>
    exact (fitField_toNat d (by decide)).trans (by rw [BitVec.setWidth_eq]; rfl)
  case locoFgrp1 _ d | accExt _ d => exact fitField_toNat d (by decide)
  case locoFgrp2 _ d | locoFgrp3 _ d => exact fitField_toNat d (by decide)
  case fastClock mn _ _ _ => exact fitField_toNat mn (by decide)
  all_goals exact fitField_zero 8

theorem assembleAux_namedOperands (i : Instr) :
    assembleAux i.op (operandValue i.namedOperands) = some i.auxField := by
  cases i
  case bcastStop b | accBasic _ b => exact fitField_flag b
  case fastClock _ h _ _ => exact fitField_toNat h (by decide)
  case pomLocoWrbit _ _ b v | progDirectBitWrite _ b v | progDirectBitVerify _ b v => exact fitField_bit b v
  all_goals exact fitField_bit 0 false

theorem assembleFields_namedOperands (i : Instr) : assembleFields i.op i.namedOperands = some i.fields := by
  simp only [assembleFields, assembleAddr_namedOperands, assembleCv_namedOperands, assembleData_namedOperands,
    assembleAux_namedOperands]
  rfl

/-- A command is written with the operand names of its opcode. -/
theorem operandNames_op (i : Instr) : i.op.operandNames = i.namedOperands.map Prod.fst := by
  cases i <;> rfl

/-- Settles O5: the assembler fills the fields of the command's word, which the decoder accepts. -/
theorem assembledCommandIsItsWord : Obligations.AssembledCommandIsItsWord := by
  unfold Obligations.AssembledCommandIsItsWord
  intro ext i hw
  have hdec : decodeFields ext i.fields = .ok i := by
    rw [← fieldsOf_encode]
    exact decode_encode hw
  have hnames : (i.op.operandNames.all fun n => i.namedOperands.any fun p => p.1 == n) = true := by
    simp only [operandNames_op, List.all_map, List.all_eq_true, List.any_eq_true, Function.comp_apply, beq_iff_eq]
    exact fun p hp => ⟨p, hp, rfl⟩
  have hlen : i.namedOperands.length = i.op.operandNames.length := by rw [operandNames_op, List.length_map]
  simp [assemble, hlen, hnames, assembleFields_namedOperands, hdec, encode]

end Sys2Proof
end

section
/-! SUPPORT. A word spells a command exactly where the opcode table allows it (30_encoding R83 to R85). -/

namespace Sys2Proof

/-! ## A row of the table, field by field (30_encoding R84) -/

theorem fieldsOf_and (v w : CmdWord) : fieldsOf (v &&& w) =
    { op := (fieldsOf v).op &&& (fieldsOf w).op, addr := (fieldsOf v).addr &&& (fieldsOf w).addr,
      cv := (fieldsOf v).cv &&& (fieldsOf w).cv, data := (fieldsOf v).data &&& (fieldsOf w).data,
      aux := (fieldsOf v).aux &&& (fieldsOf w).aux, rsv := (fieldsOf v).rsv &&& (fieldsOf w).rsv } := by
  simp only [fieldsOf, BitVec.extractLsb'_and]

theorem fieldsOf_inj {v w : CmdWord} : fieldsOf v = fieldsOf w ↔ v = w :=
  ⟨fun h => by rw [← wordOf_fieldsOf v, h, wordOf_fieldsOf], congrArg fieldsOf⟩

/-- A row's `match` is its opcode alone, and its `mask` covers all of `OP` and `RSV`. -/
theorem Op.tableRow_fields (o : Op) :
    fieldsOf o.tableRow.1 = ⟨o.code, 0, 0, 0, 0, 0⟩ ∧
    (fieldsOf o.tableRow.2).op = BitVec.allOnes 8 ∧ (fieldsOf o.tableRow.2).rsv = BitVec.allOnes 8 := by
  cases o <;> decide

/-- The bits of `ADDR`, `CV`, `DATA` and `AUX` that an opcode's row masks are 0. -/
def Op.MaskedZero (o : Op) (f : CmdFields) : Prop :=
  f.addr &&& (fieldsOf o.tableRow.2).addr = 0 ∧ f.cv &&& (fieldsOf o.tableRow.2).cv = 0 ∧
  f.data &&& (fieldsOf o.tableRow.2).data = 0 ∧ f.aux &&& (fieldsOf o.tableRow.2).aux = 0

theorem Op.tableRow_iff {o : Op} {w : CmdWord} : w &&& o.tableRow.2 = o.tableRow.1 ↔
    o.code = (fieldsOf w).op ∧ (fieldsOf w).rsv = 0 ∧ o.MaskedZero (fieldsOf w) := by
  obtain ⟨hmatch, hop, hrsv⟩ := o.tableRow_fields
  rw [← fieldsOf_inj, fieldsOf_and, hmatch, hop, hrsv, BitVec.and_allOnes, BitVec.and_allOnes, CmdFields.mk.injEq,
    eq_comm (a := (fieldsOf w).op)]
  unfold Op.MaskedZero
  tauto

/-! ## Masks (30_encoding R83) -/

/-- A mask of the bits from `n` up allows the values below `2 ^ n`. -/
theorem and_highMask_eq_zero_iff {m n : Nat} {mask x : BitVec m} (hn : n < m) (hmask : mask = BitVec.allOnes m <<< n) :
    x &&& mask = 0 ↔ x.toNat < 2 ^ n := by
  rw [BitVec.toNat_lt_iff_getLsbD_eq_false n hn, hmask]
  constructor
  · intro h k
    have hk := congrArg (fun y => y.getLsbD (n + k)) h
    by_cases hm : n + k < m
    · simpa [hm] using hk
    · exact BitVec.getLsbD_of_ge x _ (by omega)
  · intro h
    apply BitVec.eq_of_getLsbD_eq
    intro k hk
    by_cases hkn : k < n
    · simp [hkn]
    · obtain ⟨j, rfl⟩ := Nat.exists_eq_add_of_le (Nat.le_of_not_lt hkn)
      simp [h j]

/-- The weekday's mask allows the values below 8 in the low byte of `ADDR`, and every high byte. -/
theorem and_weekdayMask_eq_zero_iff (x : BitVec 16) : x &&& 0x00F8 = 0 ↔ (x.extractLsb' 0 8).toNat < 2 ^ 3 := by
  rw [← and_highMask_eq_zero_iff (mask := 0xF8) (by decide) rfl]
  have hlo : (x &&& 0x00F8).extractLsb' 0 8 = x.extractLsb' 0 8 &&& 0xF8 := BitVec.extractLsb'_and
  have hhi : (x &&& 0x00F8).extractLsb' 8 8 = 0 := by simp [BitVec.extractLsb'_and]
  refine ⟨fun h => by rw [← hlo, h]; rfl, fun h => ?_⟩
  rw [← BitVec.extractLsb'_append_extractLsb' (w := 8) (len := 8) (x := x &&& 0x00F8), hhi, hlo, h]
  rfl

/-! ## Which fields spell operands (30_encoding R83) -/

theorem isSome_bind_iff {α β : Type} {x : Option α} {f : α → Option β} :
    (x.bind f).isSome = true ↔ ∃ a, x = some a ∧ (f a).isSome = true := by
  cases x <;> simp

theorem exists_locoAddrOf_iff {x : BitVec 16} : (∃ a, locoAddrOf x = some a) ↔ 1 ≤ x.toNat ∧ x.toNat ≤ 10239 := by
  simp [locoAddrOf]

theorem exists_locoAddrOrZeroOf_iff {x : BitVec 16} : (∃ a, locoAddrOrZeroOf x = some a) ↔ x.toNat ≤ 10239 := by
  simp [locoAddrOrZeroOf]

theorem exists_cvAddrOf_iff {x : BitVec 16} : (∃ c, cvAddrOf x = some c) ↔ 1 ≤ x.toNat ∧ x.toNat ≤ 1024 := by
  simp [cvAddrOf]

theorem exists_regIdxOf_iff {x : BitVec 16} : (∃ r, regIdxOf x = some r) ↔ 1 ≤ x.toNat ∧ x.toNat ≤ 8 := by
  simp [regIdxOf]

theorem exists_lowBits_iff {n m : Nat} {x : BitVec m} : (∃ v, lowBits n x = some v) ↔ x.toNat < 2 ^ n := by
  simp [lowBits]

theorem exists_auxFlag_iff {x : Byte} : (∃ b, auxFlag x = some b) ↔ x.toNat < 2 ^ 1 := by
  simp [auxFlag, lowBits]

theorem exists_auxBit_iff {x : Byte} : (∃ p, auxBit x = some p) ↔ x.toNat < 2 ^ 4 := by
  simp [auxBit, lowBits]

theorem isSome_fastClockOf_iff {f : CmdFields} : (fastClockOf f).isSome = true ↔
    f.data.toNat ≤ 59 ∧ f.aux.toNat ≤ 23 ∧
    (f.addr.extractLsb' 0 8).toNat ≤ 6 ∧ (f.addr.extractLsb' 8 8).toNat ≤ 63 := by
  unfold fastClockOf
  split <;> simp_all

/-! ## The table and the decoder -/

theorem addrNat_eq (w : CmdWord) : addrNat w = (fieldsOf w).addr.toNat := by
  simp [addrNat, fieldsOf, BitVec.extractLsb'_toNat, Nat.shiftRight_eq_div_pow]

theorem cvNat_eq (w : CmdWord) : cvNat w = (fieldsOf w).cv.toNat := by
  simp [cvNat, fieldsOf, BitVec.extractLsb'_toNat, Nat.shiftRight_eq_div_pow]

/-- The ranges of `FAST_CLOCK` in the fields of its word. -/
theorem Op.rangeOk_fastClock {w : CmdWord} : Op.fastClock.rangeOk w ↔
    (fieldsOf w).data.toNat ≤ 59 ∧ (fieldsOf w).aux.toNat ≤ 23 ∧
    ((fieldsOf w).addr.extractLsb' 0 8).toNat ≤ 6 ∧ ((fieldsOf w).addr.extractLsb' 8 8).toNat ≤ 63 := by
  have hhi : addrNat w / 2 ^ 8 = addrNat w / 2 ^ 8 % 2 ^ 8 := by unfold addrNat; omega
  rw [Op.rangeOk, hhi, addrNat_eq]
  simp [fieldsOf, BitVec.extractLsb'_toNat, Nat.shiftRight_eq_div_pow]

theorem Op.maskedZero_fastClock {f : CmdFields} :
    Op.fastClock.MaskedZero f ↔ (f.addr.extractLsb' 0 8).toNat < 2 ^ 3 ∧ f.cv = 0 := by
  have hmask : fieldsOf Op.fastClock.tableRow.2 = ⟨0xFF, 0x00F8, BitVec.allOnes 16, 0, 0, 0xFF⟩ := by decide
  rw [Op.MaskedZero, hmask, and_weekdayMask_eq_zero_iff, BitVec.and_allOnes]
  simp

/-- The decoder's checks of the fields say what the mask and the ranges of the opcode's row say. -/
theorem Op.maskedZero_and_rangeOk_iff {o : Op} {w : CmdWord} : o.MaskedZero (fieldsOf w) ∧ o.rangeOk w ↔
    o.unusedZero (fieldsOf w) = true ∧ (o.operands (fieldsOf w)).isSome = true := by
  have full16 (x : BitVec 16) : x &&& 0xFFFF#16 = x := BitVec.and_allOnes
  have full8 (x : Byte) : x &&& 0xFF#8 = x := BitVec.and_allOnes
  have above12 (x : BitVec 16) : x &&& 0xF000#16 = 0#16 ↔ x.toNat < 2 ^ 12 := and_highMask_eq_zero_iff (by decide) rfl
  have above11 (x : BitVec 16) : x &&& 0xF800#16 = 0#16 ↔ x.toNat < 2 ^ 11 := and_highMask_eq_zero_iff (by decide) rfl
  have above9 (x : BitVec 16) : x &&& 0xFE00#16 = 0#16 ↔ x.toNat < 2 ^ 9 := and_highMask_eq_zero_iff (by decide) rfl
  have above5 (x : Byte) : x &&& 0xE0#8 = 0#8 ↔ x.toNat < 2 ^ 5 := and_highMask_eq_zero_iff (by decide) rfl
  have above4 (x : Byte) : x &&& 0xF0#8 = 0#8 ↔ x.toNat < 2 ^ 4 := and_highMask_eq_zero_iff (by decide) rfl
  have above1 (x : Byte) : x &&& 0xFE#8 = 0#8 ↔ x.toNat < 2 ^ 1 := and_highMask_eq_zero_iff (by decide) rfl
  cases o
  case fastClock =>
    rw [Op.operands, isSome_fastClockOf_iff, Op.rangeOk_fastClock, Op.maskedZero_fastClock]
    simp [Op.unusedZero, Op.usesAddr, Op.usesCv, Op.usesData, Op.usesAux]
    omega
  all_goals
    simp only [Op.rangeOk, addrNat_eq, cvNat_eq]
    generalize fieldsOf w = f
    simp only [Op.operands, Option.bind_eq_bind, isSome_bind_iff, Option.pure_def, Option.isSome_some, and_true,
      exists_and_right, exists_locoAddrOf_iff, exists_locoAddrOrZeroOf_iff, exists_cvAddrOf_iff, exists_regIdxOf_iff,
      exists_lowBits_iff, exists_auxFlag_iff, exists_auxBit_iff]
    simp [Op.MaskedZero, Op.tableRow, fieldsOf, full16, full8, above12, above11, above9, above5, above4, above1,
      Op.unusedZero, Op.usesAddr, Op.usesCv, Op.usesData, Op.usesAux, and_assoc, and_comm, and_left_comm]

theorem Op.needsExt_iff {o : Op} : o.needsExt = true ↔ o = .locoFgrp4 ∨ o = .locoFgrp5 := by
  cases o <;> decide

theorem tableLegal_iff {ext : Bool} {w : CmdWord} : TableLegal ext w ↔ ∃ i, decode ext w = .ok i := by
  simp only [decode_eq_ok_iff, TableLegal, Op.tableRow_iff, ← Op.needsExt_iff]
  constructor
  · rintro ⟨o, ⟨hop, hrsv, hmask⟩, hrange, hext⟩
    obtain ⟨hzero, hi⟩ := Op.maskedZero_and_rangeOk_iff.mp ⟨hmask, hrange⟩
    obtain ⟨i, hi⟩ := Option.isSome_iff_exists.mp hi
    exact ⟨i, o, hop, hext, hrsv, hzero, hi⟩
  · rintro ⟨i, o, hop, hext, hrsv, hzero, hi⟩
    obtain ⟨hmask, hrange⟩ := Op.maskedZero_and_rangeOk_iff.mpr ⟨hzero, Option.isSome_of_eq_some hi⟩
    exact ⟨o, ⟨hop, hrsv, hmask⟩, hrange, hext⟩

end Sys2Proof

namespace Sys2Proof.Machine

theorem runCommand_ok {w : CmdWord} {s : State} {i : Instr} (h : decode s.params.extFuncs w = .ok i) :
    runCommand (some w) s = exec i s := by
  simp [runCommand, h]

theorem runCommand_illegal {w : CmdWord} {s : State} {why : Illegal} (h : decode s.params.extFuncs w = .illegal why) :
    runCommand (some w) s = .next (respondIllegal s) := by
  simp [runCommand, h]

/-- Settles O4: the table allows exactly the words that decode. -/
theorem illegalWordsRule : Obligations.IllegalWordsRule := by
  unfold Obligations.IllegalWordsRule
  intro w s
  rw [tableLegal_iff]
  refine ⟨fun ⟨i, hi⟩ => ⟨i, wellFormed_of_decode hi, encode_of_decode hi, runCommand_ok hi⟩, fun h => ?_⟩
  cases hw : decode s.params.extFuncs w with
  | ok i => exact absurd ⟨i, hw⟩ h
  | illegal why => exact runCommand_illegal hw

end Sys2Proof.Machine
end

section
/-! SUPPORT. The keys of the built messages (42_organizer R212). -/

namespace Sys2Proof.Machine

/-! ## Kinds of instruction bytes (42_organizer R212) -/

theorem kindOf_speedByte28 (s : Byte) : kindOf (speedByte28 s) = some .speed28 := by
  revert s
  decide

theorem kindOf_speedByte14 (s : Byte) (f0 : Bool) : kindOf (speedByte14 s f0) = some .speed28 := by
  revert s f0
  decide

theorem kindOf_group1 (b : Bool) (x : BitVec 4) :
    kindOf (0x80 ||| (bitByte b <<< 4) ||| x.setWidth 8) = some .fg1 := by
  revert b x
  decide

theorem kindOf_group2 (x : Byte) : kindOf (0xB0 ||| (x &&& 0xF)) = some .fg2 := by
  revert x
  decide

theorem kindOf_group3 (x : Byte) : kindOf (0xA0 ||| (x &&& 0xF)) = some .fg3 := by
  revert x
  decide

theorem cvHi_eq (c : CvAddr) : cvHi c = (c.extractLsb' 8 2).setWidth 8 := by
  unfold cvHi
  apply BitVec.eq_of_toNat_eq
  simp [BitVec.extractLsb'_toNat]
  omega

/-- A program-on-main instruction byte is neither a speed nor a function command. -/
theorem kindOf_pom {base : Byte} (hbase : base ∈ [0xE4, 0xE8, 0xEC]) (c : CvAddr) :
    kindOf (base ||| cvHi c) = none := by
  rw [cvHi_eq]
  generalize c.extractLsb' 8 2 = x
  revert base x
  decide

/-! ## Keys of byte sequences (42_organizer R212) -/

theorem take_payloadBytes_payloadOf : ∀ {l : List Byte}, l.length ≤ 6 → (payloadBytes (payloadOf l)).take l.length = l
  | [], _ | [_], _ | [_, _], _ | [_, _, _], _ | [_, _, _, _], _ | [_, _, _, _, _], _ | [_, _, _, _, _, _], _ => rfl

/-- A built message's meaningful bytes are those it was built from (41_builders R160). -/
theorem msgBytes_mkMsg {l : List Byte} (rep : Byte) (type : MsgType) (h : l.length ≤ 6) :
    msgBytes (mkMsg rep type l) = l := by
  have hn : (BitVec.ofNat 3 l.length).toNat = l.length := by simp; omega
  rw [msgBytes, mkMsg, hn, take_payloadBytes_payloadOf h]

theorem keyOfBytes_raw {b0 : Byte} (b1 : Byte) (rest : List Byte) (hshort : ¬(0x01 ≤ b0.toNat ∧ b0.toNat ≤ 0x7F))
    (hlong : ¬(0xC0 ≤ b0.toNat ∧ b0.toNat ≤ 0xE7)) : keyOfBytes (b0 :: b1 :: rest) = .raw (b0 :: b1 :: rest) := by
  simp only [keyOfBytes, if_neg hshort, if_neg hlong]

theorem keyOfBytes_short {b0 : Byte} (ins : Byte) (rest : List Byte) (hshort : 0x01 ≤ b0.toNat ∧ b0.toNat ≤ 0x7F) :
    keyOfBytes (b0 :: ins :: rest) = (kindOf ins).elim (.raw (b0 :: ins :: rest)) (.cmd .short (b0.setWidth 14)) := by
  simp only [keyOfBytes, if_pos hshort]
  cases kindOf ins <;> rfl

theorem keyOfBytes_long {b0 : Byte} (b1 ins : Byte) (rest : List Byte) (hlong : 0xC0 ≤ b0.toNat ∧ b0.toNat ≤ 0xE7) :
    keyOfBytes (b0 :: b1 :: ins :: rest) = (kindOf ins).elim (.raw (b0 :: b1 :: ins :: rest))
      (.cmd .long (((b0 &&& 0x3F).setWidth 14 <<< 8) ||| b1.setWidth 14)) := by
  have hshort : ¬(0x01 ≤ b0.toNat ∧ b0.toNat ≤ 0x7F) := by omega
  simp only [keyOfBytes, if_neg hshort, if_pos hlong, List.head?_cons, Option.bind_some]
  cases kindOf ins <;> rfl

/-! ## Address bytes (41_builders R161) -/

/-- The addressing class of a locomotive. -/
def addrClass (p : Params) (a : LocoAddr) : AddrClass := if a.toNat < p.longAddrMin then .short else .long

theorem shiftRight_eq_high (a : LocoAddr) : (a >>> 8).setWidth 8 = (a.extractLsb' 8 6).setWidth 8 := by
  apply BitVec.eq_of_toNat_eq
  simp [BitVec.extractLsb'_toNat]
  omega

theorem toNat_longAddrHigh (a : LocoAddr) : (0xC0#8 ||| (a >>> 8).setWidth 8).toNat = 0xC0 + a.toNat / 256 := by
  have hor (h : BitVec 6) : (0xC0#8 ||| h.setWidth 8).toNat = 0xC0 + h.toNat := by
    revert h
    decide
  rw [shiftRight_eq_high, hor, BitVec.extractLsb'_toNat, Nat.shiftRight_eq_div_pow]
  omega

/-- A long address comes back from its two bytes. -/
theorem longAddr_of_bytes (a : LocoAddr) :
    ((0xC0#8 ||| (a >>> 8).setWidth 8) &&& 0x3F).setWidth 14 <<< 8 ||| (a.setWidth 8).setWidth 14 = a := by
  have hand (h : BitVec 6) : (0xC0#8 ||| h.setWidth 8) &&& 0x3F = h.setWidth 8 := by
    revert h
    decide
  rw [shiftRight_eq_high, hand]
  apply BitVec.eq_of_getLsbD_eq
  intro k hk
  by_cases h8 : k < 8
  · simp [h8, hk]
  · obtain ⟨j, rfl⟩ := Nat.exists_eq_add_of_le (Nat.le_of_not_lt h8)
    have hj : j < 6 := by omega
    simp [hj, hk]

/-- The key of the bytes of a locomotive message: its class, address and the kind of its instruction byte. -/
theorem keyOfBytes_addrBytes {p : Params} {a : LocoAddr} (hp : p.longAddrMin ≤ 128) (ha : LocoAddr.legal a = true)
    (ins : Byte) (rest : List Byte) : keyOfBytes (addrBytes p a ++ ins :: rest) =
      (kindOf ins).elim (.raw (addrBytes p a ++ ins :: rest)) (.cmd (addrClass p a) a) := by
  simp only [LocoAddr.legal, Bool.and_eq_true, decide_eq_true_eq] at ha
  unfold addrBytes addrClass
  split
  case isTrue hshort =>
    have hn : (a.setWidth 8).toNat = a.toNat := by simp; omega
    have hid : (a.setWidth 8).setWidth 14 = a := by bv_omega
    have hkey := keyOfBytes_short (b0 := a.setWidth 8) ins rest (by omega)
    rwa [hid] at hkey
  case isFalse hlong =>
    have hn := toNat_longAddrHigh a
    have hkey := keyOfBytes_long (b0 := 0xC0#8 ||| (a >>> 8).setWidth 8) (a.setWidth 8) ins rest (by omega)
    rwa [longAddr_of_bytes] at hkey

/-! ## Keys of messages -/

/-- A message whose first byte is no locomotive address byte is RAW. -/
theorem keyOf_raw {m : Message} {b0 b1 : Byte} {rest : List Byte} (hm : msgBytes m = b0 :: b1 :: rest)
    (hshort : ¬(0x01 ≤ b0.toNat ∧ b0.toNat ≤ 0x7F)) (hlong : ¬(0xC0 ≤ b0.toNat ∧ b0.toNat ≤ 0xE7)) :
    keyOf m = .raw (msgBytes m) := by
  rw [keyOf, hm, keyOfBytes_raw b1 rest hshort hlong]

theorem keyOf_accLow {l : List Byte} (rep : Byte) (type : MsgType) (dec : BitVec 9) (b1 : Byte) (h : l.length ≤ 4) :
    keyOf (mkMsg rep type (accLow dec :: b1 :: l)) = .raw (msgBytes (mkMsg rep type (accLow dec :: b1 :: l))) := by
  have hlow (x : Byte) : 0x80 ≤ (0x80 ||| (x &&& 0x3F)).toNat ∧ (0x80 ||| (x &&& 0x3F)).toNat < 0xC0 := by
    revert x
    decide
  obtain ⟨h1, h2⟩ : 0x80 ≤ (accLow dec).toNat ∧ (accLow dec).toNat < 0xC0 := hlow _
  exact keyOf_raw (msgBytes_mkMsg _ _ (by simp; omega)) (by omega) (by omega)

section Loco

variable {p : Params} {a : LocoAddr} {ins : Byte} {rest : List Byte}

theorem msgBytes_locoMsg (rep : Byte) (type : MsgType) (hrest : rest.length ≤ 3) :
    msgBytes (mkMsg rep type (addrBytes p a ++ ins :: rest)) = addrBytes p a ++ ins :: rest := by
  have hlen := addrBytes_length p a
  exact msgBytes_mkMsg _ _ (by simp only [List.length_append, List.length_cons]; omega)

theorem keyOf_locoCommand {k : CmdKind} (rep : Byte) (type : MsgType) (hrest : rest.length ≤ 3)
    (hp : p.longAddrMin ≤ 128) (ha : LocoAddr.legal a = true) (hk : kindOf ins = some k) :
    keyOf (mkMsg rep type (addrBytes p a ++ ins :: rest)) = .cmd (addrClass p a) a k := by
  rw [keyOf, msgBytes_locoMsg rep type hrest, keyOfBytes_addrBytes hp ha, hk]
  rfl

theorem keyOf_locoOther (rep : Byte) (type : MsgType) (hrest : rest.length ≤ 3)
    (hp : p.longAddrMin ≤ 128) (ha : LocoAddr.legal a = true) (hk : kindOf ins = none) :
    keyOf (mkMsg rep type (addrBytes p a ++ ins :: rest)) =
      .raw (msgBytes (mkMsg rep type (addrBytes p a ++ ins :: rest))) := by
  rw [keyOf, msgBytes_locoMsg rep type hrest, keyOfBytes_addrBytes hp ha, hk]
  rfl

end Loco

theorem Params.longAddrMin_le_of_valid {p : Params} (h : p.valid = true) : p.longAddrMin ≤ 128 := by
  simp only [Params.valid, Bool.and_eq_true, decide_eq_true_eq] at h
  tauto

/-- Settles O31: a locomotive message's key turns on its instruction byte, and the others open with no address byte. -/
theorem keysOfBuiltMessages : Obligations.KeysOfBuiltMessages := by
  unfold Obligations.KeysOfBuiltMessages
  intro p a v f0 funcs hp ha
  have hmin := Params.longAddrMin_le_of_valid hp
  have command {ins : Byte} {rest : List Byte} {k : CmdKind} (rep : Byte) (hrest : rest.length ≤ 3)
      (hk : kindOf ins = some k) := keyOf_locoCommand rep .loco hrest hmin ha hk
  refine ⟨command _ (by simp) rfl, command _ (by simp) (kindOf_speedByte28 v),
    command _ (by simp) (kindOf_speedByte14 v f0), command _ (by simp) (kindOf_group1 _ _),
    command _ (by simp) (kindOf_group2 _), command _ (by simp) (kindOf_group3 _),
    command _ (by simp) rfl, command _ (by simp) rfl, ?_⟩
  intro c d b u x y z w m hm
  simp only [List.mem_cons, List.not_mem_nil, or_false] at hm
  rcases hm with rfl | rfl | rfl | rfl | rfl | rfl | rfl | rfl
  · exact keyOf_locoOther _ _ (by simp) hmin ha (kindOf_pom (by simp) c)
  · exact keyOf_locoOther _ _ (by simp) hmin ha (kindOf_pom (by simp) c)
  · exact keyOf_locoOther _ _ (by simp) hmin ha (kindOf_pom (by simp) c)
  · exact keyOf_accLow _ _ _ _ (by simp)
  · exact keyOf_accLow _ _ _ _ (by simp)
  · exact keyOf_accLow _ _ _ _ (by simp)
  · exact keyOf_raw (msgBytes_mkMsg _ _ (by simp)) (by decide) (by decide)
  · exact keyOf_raw rfl (by decide) (by decide)

end Sys2Proof.Machine
end

section
/-! SUPPORT. The arms of the encoder's tick, one equation each (40_encoder R133 to R140). -/

namespace Sys2Proof.Machine

/-! ## The arms of the tick (40_encoder R133 to R140) -/

/-- The state after ticks that emit `l`, leave the encoder's registers `e` and change nothing else. -/
def emitted (l : List Symbol) (e : Encoder) (s : State) : State := { s with enc := e, track := s.track ++ l }

@[simp] theorem emitted_enc (l : List Symbol) (e : Encoder) (s : State) : (emitted l e s).enc = e := rfl

/-- Two runs of ticks are one. -/
@[simp] theorem emitted_emitted (l l' : List Symbol) (e e' : Encoder) (s : State) :
    emitted l' e' (emitted l e s) = emitted (l ++ l') e' s := by
  simp [emitted]

/-- The message a packet that starts now carries (40_encoder R133). -/
def nextPacket (s : State) : Message := if s.mbxCnt = 0 then idleMsg else s.mbx

/-- `MBX_CNT` after an `IDLE` tick (40_encoder R133). -/
def countDown (c : Byte) : Byte := if c = 0 then 0 else c - 1

/-- The registers after an `IDLE` tick: a packet of `m` with `n` preamble bits starts (40_encoder R133). -/
def packetStart (m : Message) (n : Nat) (e : Encoder) : Encoder :=
  { e with buf := m, xor := 0, idx := 0, cnt := BitVec.ofNat 8 (n - 1), state := .preamble }

/-- The registers after a preamble bit (40_encoder R134). -/
def preambleNext (e : Encoder) : Encoder :=
  { e with cnt := e.cnt - 1, state := if e.cnt = 1 then .byteStart else .preamble }

/-- The registers after the start bit of a payload byte (40_encoder R135). -/
def byteLoaded (e : Encoder) : Encoder :=
  { e with
    sr := payloadAt e.buf.payload e.idx, xor := e.xor ^^^ payloadAt e.buf.payload e.idx, idx := e.idx + 1, cnt := 8
    state := .byte }

/-- The registers after the start bit of the checksum (40_encoder R135). -/
def checksumLoaded (e : Encoder) : Encoder := { e with sr := e.xor, cnt := 8, state := .xor }

/-- The registers after a data bit; `done` is the state after the eighth (40_encoder R136, R137). -/
def shiftNext (here done : EncState) (e : Encoder) : Encoder :=
  { e with sr := e.sr <<< 1, cnt := e.cnt - 1, state := if e.cnt = 1 then done else here }

/-- The registers after the end bit, where `cut` is `CUTOUT_EN` (40_encoder R138). -/
def packetEnd (cut : Bool) (e : Encoder) : Encoder := { e with cut := cut, state := if cut then .cutout1 else .idle }

/-- The registers after a tick that only goes on to another state (40_encoder R139, R140). -/
def goTo (st : EncState) (e : Encoder) : Encoder := { e with state := st }

theorem preambleNext_last {e : Encoder} (h : e.cnt = 1) :
    preambleNext e = { e with cnt := 0, state := .byteStart } := by
  simp [preambleNext, h]

theorem preambleNext_more {e : Encoder} (h : e.cnt ≠ 1) :
    preambleNext e = { e with cnt := e.cnt - 1, state := .preamble } := by
  rw [preambleNext, if_neg h]

theorem shiftNext_last {here done : EncState} {e : Encoder} (h : e.cnt = 1) :
    shiftNext here done e = { e with sr := e.sr <<< 1, cnt := 0, state := done } := by
  simp [shiftNext, h]

theorem shiftNext_more {here done : EncState} {e : Encoder} (h : e.cnt ≠ 1) :
    shiftNext here done e = { e with sr := e.sr <<< 1, cnt := e.cnt - 1, state := here } := by
  rw [shiftNext, if_neg h]

section Arms

variable {s : State}

theorem encTick_idle (h : s.enc.state = .idle) : encTick s =
    emitted [.one] (packetStart (nextPacket s) (preambleLen s.params s.runMode) s.enc)
      { s with mbxCnt := countDown s.mbxCnt } := by
  have hcnt : (if s.mbxCnt = 0 then s.mbxCnt else s.mbxCnt - 1) = countDown s.mbxCnt := by
    unfold countDown
    split <;> simp_all
  simp only [encTick, h, tickIdle, hcnt]
  rfl

theorem encTick_preamble (h : s.enc.state = .preamble) : encTick s = emitted [.one] (preambleNext s.enc) s := by
  simp only [encTick, h, tickPreamble, sub_eq_zero]
  rfl

theorem encTick_byteStart_payload (h : s.enc.state = .byteStart) (hlt : s.enc.idx.toNat < s.enc.buf.size.toNat) :
    encTick s = emitted [.zero] (byteLoaded s.enc) s := by
  simp only [encTick, h]
  simp [tickByteStart, emit, setEnc, emitted, byteLoaded, hlt]

theorem encTick_byteStart_checksum (h : s.enc.state = .byteStart) (hge : s.enc.buf.size.toNat ≤ s.enc.idx.toNat) :
    encTick s = emitted [.zero] (checksumLoaded s.enc) s := by
  simp only [encTick, h]
  simp [tickByteStart, emit, setEnc, emitted, checksumLoaded, Nat.not_lt.mpr hge]

theorem tickShift_eq (here done : EncState) (s : State) : tickShift here done s =
    emitted [bitSymbol (s.enc.sr.getLsbD 7)] (shiftNext here done s.enc) s := by
  simp only [tickShift, sub_eq_zero]
  rfl

theorem encTick_byte (h : s.enc.state = .byte) : encTick s =
    emitted [bitSymbol (s.enc.sr.getLsbD 7)] (shiftNext .byte .byteStart s.enc) s := by
  simp only [encTick, h, tickByte, tickShift_eq]

theorem encTick_xor (h : s.enc.state = .xor) : encTick s =
    emitted [bitSymbol (s.enc.sr.getLsbD 7)] (shiftNext .xor .endBit s.enc) s := by
  simp only [encTick, h, tickXor, tickShift_eq]

theorem encTick_endBit (h : s.enc.state = .endBit) : encTick s = emitted [.one] (packetEnd s.cutoutEn s.enc) s := by
  simp only [encTick, h]
  rfl

theorem encTick_cutout1 (h : s.enc.state = .cutout1) : encTick s = emitted [.gap] (goTo .cutout2 s.enc) s := by
  simp only [encTick, h]
  rfl

theorem encTick_cutout2 (h : s.enc.state = .cutout2) : encTick s = emitted [.gap] (goTo .idle s.enc) s := by
  simp only [encTick, h]
  rfl

end Arms

theorem isProg_iff (m : RunMode) :
    isProg m = true ↔ m = .progOkay ∨ m = .progShort ∨ m = .progOff ∨ m = .progError := by
  cases m <;> simp [isProg]

/-- Settles O11, by the rule of the `IDLE` arm. -/
theorem idleTickStartsPacket : Obligations.IdleTickStartsPacket := by
  unfold Obligations.IdleTickStartsPacket
  intro s h prog
  have hlen : preambleLen s.params s.runMode = if prog then s.params.preambleProg else s.params.preambleRun := by
    simp only [preambleLen, isProg_iff, prog]
  rw [encTick_idle h, hlen]
  rfl

/-- Settles O12, by the rule of each arm. -/
theorem encoderArms : Obligations.EncoderArms := by
  unfold Obligations.EncoderArms
  intro s
  exact ⟨encTick_preamble, encTick_byteStart_payload, encTick_byteStart_checksum, encTick_byte, encTick_xor,
    encTick_endBit, encTick_cutout1, encTick_cutout2, rfl⟩

end Sys2Proof.Machine
end

section
/-! SUPPORT. The invariant of the encoder's registers (40_encoder R133 to R138, R141), what a `CORE` step does to the
mailbox, and the "ready" signal (R142). -/

namespace Sys2Proof.Machine

/-! ## The running checksum (00_scope R11, 40_encoder R135) -/

theorem size_le_of_sizeOk {m : Message} (h : sizeOk m = true) : 2 ≤ m.size.toNat ∧ m.size.toNat ≤ 5 := by
  simp only [sizeOk, Bool.and_eq_true, decide_eq_true_eq] at h
  exact h

/-- Payload byte `i` is the meaningful byte at its place. -/
theorem msgBytes_getElem? {m : Message} {i : BitVec 3} (hm : sizeOk m = true) (hi : i.toNat < m.size.toNat) :
    (msgBytes m)[i.toNat]? = some (payloadAt m.payload i) := by
  have hlen : i.toNat < (payloadBytes m.payload).length := by
    have := size_le_of_sizeOk hm
    simp only [payloadBytes, List.length_cons, List.length_nil]
    omega
  rw [msgBytes, List.getElem?_take_of_lt hi, payloadAt, List.getD_eq_getElem _ _ hlen, List.getElem?_eq_getElem hlen]

theorem xorUpTo_succ {m : Message} {i : BitVec 3} (hm : sizeOk m = true) (hi : i.toNat < m.size.toNat) :
    xorUpTo m (i.toNat + 1) = xorUpTo m i.toNat ^^^ payloadAt m.payload i := by
  simp [xorUpTo, List.take_add_one, msgBytes_getElem? hm hi]

theorem xorUpTo_size (m : Message) : xorUpTo m m.size.toNat = cksum m := by
  simp [xorUpTo, cksum, msgBytes, List.take_take]

/-- The index does not wrap: there are at most five bytes to count. -/
theorem idx_add_one {m : Message} {i : BitVec 3} (hm : sizeOk m = true) (hi : i.toNat < m.size.toNat) :
    (i + 1).toNat = i.toNat + 1 := by
  have := size_le_of_sizeOk hm
  bv_omega

/-! ## The encoder's registers agree with the packet (40_encoder R133 to R138, R141) -/

/-- A bit counter that does not run out this tick does not wrap. -/
theorem cnt_sub_one {c : Byte} (h0 : c ≠ 0) (h1 : c ≠ 1) : c - 1 ≠ 0 ∧ (c - 1).toNat ≤ c.toNat := by
  refine ⟨fun h => h1 (sub_eq_zero.mp h), ?_⟩
  bv_omega

theorem preambleLen_of_valid {p : Params} (m : RunMode) (h : p.valid = true) :
    2 ≤ preambleLen p m ∧ preambleLen p m ≤ 256 := by
  simp only [Params.valid, Bool.and_eq_true, decide_eq_true_eq] at h
  unfold preambleLen
  split <;> omega

namespace EncoderOk

variable {e : Encoder}

/-! ### What the registers have to meet, state by state -/

theorem of_preamble (hs : e.state = .preamble) (hm : sizeOk e.buf = true) (hidx : e.idx = 0) (hxor : e.xor = 0)
    (hcnt : e.cnt ≠ 0) : EncoderOk e := by
  constructor
  case running => exact fun _ => by rw [hidx]; exact hxor
  case counting => exact fun _ => hcnt
  all_goals simp [hs, hm, hidx]

theorem of_byteStart (hs : e.state = .byteStart) (hm : sizeOk e.buf = true) (hidx : e.idx.toNat ≤ e.buf.size.toNat)
    (hxor : e.xor = xorUpTo e.buf e.idx.toNat) : EncoderOk e := by
  constructor <;> simp [hs, hm, hidx, hxor]

theorem of_byte (hs : e.state = .byte) (hm : sizeOk e.buf = true) (hidx : e.idx.toNat ≤ e.buf.size.toNat)
    (hload : e.idx ≠ 0) (hxor : e.xor = xorUpTo e.buf e.idx.toNat) (hcnt : e.cnt ≠ 0) (hbits : e.cnt.toNat ≤ 8) :
    EncoderOk e := by
  constructor
  case counting => exact fun _ => hcnt
  case loaded => exact fun _ => hload
  all_goals simp [hs, hm, hidx, hxor, hbits]

theorem of_xor (hs : e.state = .xor) (hm : sizeOk e.buf = true) (hsum : e.idx = e.buf.size ∧ e.xor = cksum e.buf)
    (hcnt : e.cnt ≠ 0) (hbits : e.cnt.toNat ≤ 8) : EncoderOk e := by
  constructor
  case counting => exact fun _ => hcnt
  all_goals simp [hs, hm, hsum, hbits]

theorem of_endBit (hs : e.state = .endBit) (hm : sizeOk e.buf = true)
    (hsum : e.idx = e.buf.size ∧ e.xor = cksum e.buf) : EncoderOk e := by
  constructor <;> simp [hs, hm, hsum]

/-- Outside a packet only the held message and the index matter. -/
theorem of_rest (hs : e.state = .idle ∨ e.state = .cutout1 ∨ e.state = .cutout2) (hm : sizeOk e.buf = true)
    (hidx : e.idx.toNat ≤ e.buf.size.toNat) : EncoderOk e := by
  rcases hs with hs | hs | hs
  all_goals constructor <;> simp [hs, hm, hidx]

/-! ### The arms keep them -/

theorem packetStart {m : Message} {n : Nat} (hm : sizeOk m = true) (hn : 2 ≤ n ∧ n ≤ 256) :
    EncoderOk (packetStart m n e) := by
  refine of_preamble rfl hm rfl rfl fun h => ?_
  have hcnt : (n - 1) % 256 = 0 := congrArg BitVec.toNat h
  omega

theorem preambleNext (h : EncoderOk e) (hs : e.state = .preamble) : EncoderOk (preambleNext e) := by
  have hidx := h.start hs
  have hxor := h.running (.inl hs)
  by_cases hc : e.cnt = 1
  · rw [preambleNext_last hc]
    exact of_byteStart rfl h.size h.idx hxor
  · rw [preambleNext_more hc]
    refine of_preamble rfl h.size hidx ?_ (cnt_sub_one (h.counting (.inl hs)) hc).1
    rw [hxor, hidx]
    rfl

theorem byteLoaded (h : EncoderOk e) (hs : e.state = .byteStart) (hlt : e.idx.toNat < e.buf.size.toNat) :
    EncoderOk (byteLoaded e) := by
  have hnext := idx_add_one h.size hlt
  have hxor := h.running (.inr (.inl hs))
  have hne : e.idx + 1 ≠ 0 := fun h0 => Nat.succ_ne_zero _ (hnext.symm.trans (congrArg BitVec.toNat h0))
  have hsum : e.xor ^^^ payloadAt e.buf.payload e.idx = xorUpTo e.buf (e.idx + 1).toNat := by
    rw [hnext, xorUpTo_succ h.size hlt, hxor]
  exact of_byte rfl h.size (hnext.trans_le hlt) hne hsum (show (8 : Byte) ≠ 0 by decide) le_rfl

theorem checksumLoaded (h : EncoderOk e) (hs : e.state = .byteStart) (hge : e.buf.size.toNat ≤ e.idx.toNat) :
    EncoderOk (checksumLoaded e) := by
  have hidx : e.idx = e.buf.size := BitVec.eq_of_toNat_eq (h.idx.antisymm hge)
  have hxor := h.running (.inr (.inl hs))
  rw [hidx, xorUpTo_size] at hxor
  exact of_xor rfl h.size ⟨hidx, hxor⟩ (show (8 : Byte) ≠ 0 by decide) le_rfl

theorem byteNext (h : EncoderOk e) (hs : e.state = .byte) : EncoderOk (shiftNext .byte .byteStart e) := by
  have hxor := h.running (.inr (.inr hs))
  by_cases hc : e.cnt = 1
  · rw [shiftNext_last hc]
    exact of_byteStart rfl h.size h.idx hxor
  · rw [shiftNext_more hc]
    obtain ⟨hne, hle⟩ := cnt_sub_one (h.counting (.inr (.inl hs))) hc
    exact of_byte rfl h.size h.idx (h.loaded hs) hxor hne (hle.trans (h.bits (.inl hs)))

theorem xorNext (h : EncoderOk e) (hs : e.state = .xor) : EncoderOk (shiftNext .xor .endBit e) := by
  have hsum := h.summed (.inl hs)
  by_cases hc : e.cnt = 1
  · rw [shiftNext_last hc]
    exact of_endBit rfl h.size hsum
  · rw [shiftNext_more hc]
    obtain ⟨hne, hle⟩ := cnt_sub_one (h.counting (.inr (.inr hs))) hc
    exact of_xor rfl h.size hsum hne (hle.trans (h.bits (.inr hs)))

end EncoderOk

theorem encoderOk_encTick {s : State} (h : EncoderOk s.enc) (hm : sizeOk s.mbx = true) (hp : s.params.valid = true) :
    EncoderOk (encTick s).enc := by
  cases hs : s.enc.state
  case idle =>
    have hnext : sizeOk (nextPacket s) = true := by
      unfold nextPacket
      split
      · exact sizeOk_idleMsg
      · exact hm
    rw [encTick_idle hs]
    exact .packetStart hnext (preambleLen_of_valid _ hp)
  case preamble => rw [encTick_preamble hs]; exact h.preambleNext hs
  case byteStart =>
    rcases Nat.lt_or_ge s.enc.idx.toNat s.enc.buf.size.toNat with hlt | hge
    · rw [encTick_byteStart_payload hs hlt]; exact h.byteLoaded hs hlt
    · rw [encTick_byteStart_checksum hs hge]; exact h.checksumLoaded hs hge
  case byte => rw [encTick_byte hs]; exact h.byteNext hs
  case xor => rw [encTick_xor hs]; exact h.xorNext hs
  case endBit =>
    rw [encTick_endBit hs]
    refine .of_rest ?_ h.size h.idx
    cases s.cutoutEn <;> simp [packetEnd]
  case cutout1 => rw [encTick_cutout1 hs]; exact .of_rest (.inr (.inr rfl)) h.size h.idx
  case cutout2 => rw [encTick_cutout2 hs]; exact .of_rest (.inl rfl) h.size h.idx

/-! ## What a step does to the mailbox (20_memory R63, 42_organizer R200) -/

/-- The last part of a `CORE` step does nothing, or it dispatches a message of a legal size from one of the branches. -/
theorem coreDispatch_mailbox {s t : State} (h : coreDispatch s = .next t) :
    t = s ∨ (s.mbxCnt = 0 ∧ ∃ m n src a, sizeOk m = true ∧ src ≠ .noSrc ∧ t = Dispatched m n src a) := by
  unfold coreDispatch at h
  split at h
  next hfree =>
    obtain ⟨m, n, src, a, ho, hsrc, -⟩ := organizerDispatch_cases s
    obtain ⟨-, hm, rfl⟩ := dispatch_eq_next.mp (ho ▸ h)
    exact .inr ⟨hfree, m, n, src, a, hm, hsrc, rfl⟩
  next => cases h; exact .inl rfl

/-- A `CORE` step leaves the mailbox, or it dispatches a message of a legal size from one of the branches. -/
theorem coreStep_mailbox {s t : State} (h : coreStep s = .next t) :
    (t.mbx = s.mbx ∧ t.mbxCnt = s.mbxCnt) ∨
    ∃ m n src a, sizeOk m = true ∧ src ≠ .noSrc ∧ t = Dispatched m n src a := by
  obtain ⟨a, b, ha, hb, ht⟩ := coreStep_cases (ok := False) False.elim h
  obtain ⟨hsa, hca⟩ := ha.frame.sameMailbox
  rcases coreDispatch_mailbox ht with rfl | ⟨-, hdisp⟩
  · rcases hb with rfl | hb
    · exact .inl ⟨hsa.mbx, hca⟩
    · obtain ⟨hab, hcb⟩ := hb.sameMailbox
      exact .inl ⟨hab.mbx.trans hsa.mbx, hcb.trans hca⟩
  · exact .inr hdisp

/-- A `CORE` step leaves a message of a legal size in the mailbox. -/
theorem sizeOk_mbx_coreStep {s t : State} (hm : sizeOk s.mbx = true) (h : coreStep s = .next t) :
    sizeOk t.mbx = true := by
  rcases coreStep_mailbox h with ⟨hmbx, -⟩ | ⟨m, n, src, a, hsize, -, rfl⟩
  · rw [hmbx]; exact hm
  · exact hsize

theorem perform_keeps_encoderOk {e : Event} {s t : State} (h : EncoderOk s.enc) (hm : sizeOk s.mbx = true)
    (hp : s.params.valid = true) (ht : perform e s = .next t) :
    EncoderOk t.enc ∧ sizeOk t.mbx = true ∧ t.params.valid = true := by
  by_cases hcore : e = .coreStep
  · subst hcore
    obtain ⟨henc, -, hparams, -⟩ := coreLeavesEncoder s t ht
    rw [henc, hparams]
    exact ⟨h, sizeOk_mbx_coreStep hm ht, hp⟩
  by_cases htick : e = .encTick
  · subst htick
    cases ht
    refine ⟨encoderOk_encTick h hm hp, ?_⟩
    rw [encTick_frame]
    exact ⟨hm, hp⟩
  · rw [perform_environment_frame hcore htick ht]
    exact ⟨h, hm, hp⟩

/-- Settles O14: each arm of the tick keeps the registers in agreement, and a `CORE` step dispatches only legal
sizes. -/
theorem stepKeepsEncoderRegisters : Obligations.StepKeepsEncoderRegisters := by
  unfold Obligations.StepKeepsEncoderRegisters
  intro s t h hm hp ht
  have he := nextEvent_frame s
  exact perform_keeps_encoderOk (by rw [he]; exact h) (by rw [he]; exact hm) (by rw [he]; exact hp) ht

/-! ## "Ready for next message" (40_encoder R142) -/

theorem encReady_iff (s : State) : encReady s = true ↔ s.mbxCnt = 0 := by simp [encReady]

theorem encReady_eq_false (s : State) : encReady s = false ↔ s.mbxCnt ≠ 0 := by simp [encReady]

/-- The count reaches 0 only in an `IDLE` tick that sends the mailbox for the last time. -/
theorem perform_frees_mailbox {e : Event} {s t : State} (h : perform e s = .next t) (hbusy : s.mbxCnt ≠ 0)
    (hfree : t.mbxCnt = 0) : e = .encTick ∧ s.enc.state = .idle ∧ s.mbxCnt = 1 ∧ t.enc.buf = s.mbx := by
  obtain ⟨-, hcnt | ⟨hcnt, rfl, hidle⟩⟩ := perform_sameMailbox h hbusy
  · exact absurd (hcnt ▸ hfree) hbusy
  · cases h
    refine ⟨rfl, hidle, sub_eq_zero.mp (hcnt ▸ hfree), ?_⟩
    rw [encTick_idle hidle]
    exact if_neg hbusy

/-- The count leaves 0 only by a dispatch. -/
theorem perform_occupies_mailbox {e : Event} {s t : State} (h : perform e s = .next t) (hfree : s.mbxCnt = 0)
    (hbusy : t.mbxCnt ≠ 0) : e = .coreStep ∧ t.mbxSrc ≠ .noSrc ∧ t.last = t.mbx ∧ t.lastValid = true := by
  by_cases hcore : e = .coreStep
  · subst hcore
    rcases coreStep_mailbox h with ⟨-, hcnt⟩ | ⟨m, n, src, a, -, hsrc, rfl⟩
    · exact absurd (hcnt.trans hfree) hbusy
    · exact ⟨rfl, hsrc, rfl, rfl⟩
  by_cases htick : e = .encTick
  · subst htick
    cases h
    rcases encTick_mbxCnt s with hcnt | ⟨hidle, -⟩
    · exact absurd (hcnt.trans hfree) hbusy
    · rw [encTick_idle hidle] at hbusy
      exact absurd (if_pos hfree) hbusy
  · rw [perform_environment_frame hcore htick h] at hbusy
    exact absurd hfree hbusy

/-- Settles O16, by the two ways the mailbox count crosses 0. -/
theorem readySignalRule : Obligations.ReadySignalRule := by
  unfold Obligations.ReadySignalRule
  intro s
  have he := nextEvent_frame s
  refine ⟨encReady_iff s, fun t ht => ⟨fun hs hr => ?_, fun hs hr => ?_⟩⟩
  · have hp := perform_frees_mailbox ht (by rw [he]; exact (encReady_eq_false s).mp hs) ((encReady_iff t).mp hr)
    rw [he] at hp
    exact hp
  · exact perform_occupies_mailbox ht (by rw [he]; exact (encReady_iff s).mp hs) ((encReady_eq_false t).mp hr)

end Sys2Proof.Machine
end

section
/-! SUPPORT. The packet a run of ticks sends (40_encoder R141, 30_encoding R89), and that it does not depend on policy
(40_encoder R143, R144). -/

namespace Sys2Proof.Machine

/-! ## A packet on the track (40_encoder R141, 30_encoding R89) -/

theorem encTicks_succ (n : Nat) (s : State) : encTicks (n + 1) s = encTicks n (encTick s) := rfl

theorem encTicks_add (m n : Nat) (s : State) : encTicks (m + n) s = encTicks n (encTicks m s) := by
  induction m generalizing s with
  | zero => rw [Nat.zero_add]; rfl
  | succ m ih => rw [Nat.add_right_comm, encTicks_succ, ih, encTicks_succ]

/-- The registers after the preamble. -/
def preambleSent (e : Encoder) : Encoder := { e with cnt := 0, state := .byteStart }

/-- The registers after a payload byte. -/
def byteSent (e : Encoder) : Encoder := { byteLoaded e with sr := 0, cnt := 0, state := .byteStart }

/-- The registers after the checksum. -/
def bodySent (e : Encoder) : Encoder :=
  { e with cnt := 0, idx := e.buf.size, sr := 0, xor := cksum e.buf, state := .endBit }

/-- The rest of the preamble, from a bit counter of `n + 1`. -/
theorem encTicks_preamble (n : Nat) {s : State} (hs : s.enc.state = .preamble) (hcnt : s.enc.cnt.toNat = n + 1) :
    encTicks (n + 1) s = emitted (List.replicate (n + 1) .one) (preambleSent s.enc) s := by
  induction n generalizing s with
  | zero =>
    have hlast : s.enc.cnt = 1 := BitVec.eq_of_toNat_eq hcnt
    rw [encTicks_succ, encTick_preamble hs, preambleNext_last hlast]
    rfl
  | succ n ih =>
    have hmore : s.enc.cnt ≠ 1 := by bv_omega
    have hnext : (s.enc.cnt - 1).toNat = n + 1 := by bv_omega
    rw [encTicks_succ, encTick_preamble hs, preambleNext_more hmore, ih rfl hnext, emitted_emitted]
    rfl

/-- The first `n` of a byte's bits, most significant first, as the shift register sends them. -/
def shiftedBits : Nat → Byte → List Symbol
  | 0, _ => []
  | n + 1, b => bitSymbol (b.getLsbD 7) :: shiftedBits n (b <<< 1)

theorem shiftedBits_eight (b : Byte) : shiftedBits 8 b = byteSymbols b := by
  simp [shiftedBits, byteSymbols]

/-- A tick in the state `here` sends one bit of the shift register, and goes to `done` after the last. -/
def Shifts (here done : EncState) : Prop :=
  ∀ s : State, s.enc.state = here →
    encTick s = emitted [bitSymbol (s.enc.sr.getLsbD 7)] (shiftNext here done s.enc) s

theorem shifts_byte : Shifts .byte .byteStart := fun _ => encTick_byte

theorem shifts_xor : Shifts .xor .endBit := fun _ => encTick_xor

/-- The rest of a byte in the shift register, from a bit counter of `n + 1`. -/
theorem Shifts.encTicks {here done : EncState} (h : Shifts here done) (n : Nat) {s : State} (hs : s.enc.state = here)
    (hcnt : s.enc.cnt.toNat = n + 1) :
    encTicks (n + 1) s = emitted (shiftedBits (n + 1) s.enc.sr)
      { s.enc with sr := s.enc.sr <<< (n + 1), cnt := 0, state := done } s := by
  induction n generalizing s with
  | zero =>
    have hlast : s.enc.cnt = 1 := BitVec.eq_of_toNat_eq hcnt
    rw [encTicks_succ, h s hs, shiftNext_last hlast]
    rfl
  | succ n ih =>
    have hmore : s.enc.cnt ≠ 1 := by bv_omega
    have hnext : (s.enc.cnt - 1).toNat = n + 1 := by bv_omega
    have hshift : s.enc.sr <<< (n + 1 + 1) = s.enc.sr <<< 1 <<< (n + 1) := by
      rw [Nat.add_comm, BitVec.shiftLeft_add]
    rw [encTicks_succ, h s hs, shiftNext_more hmore, ih rfl hnext, emitted_emitted, hshift]
    rfl

/-- A whole byte in the shift register. -/
theorem Shifts.encTicks_eight {here done : EncState} (h : Shifts here done) {s : State} (hs : s.enc.state = here)
    (hcnt : s.enc.cnt = 8) :
    Machine.encTicks 8 s = emitted (byteSymbols s.enc.sr) { s.enc with sr := 0, cnt := 0, state := done } s := by
  rw [h.encTicks 7 hs (by rw [hcnt]; rfl), shiftedBits_eight, BitVec.shiftLeft_eq_zero le_rfl]
  rfl

/-- A start bit and a payload byte. -/
theorem encTicks_payloadByte {s : State} (hs : s.enc.state = .byteStart)
    (hlt : s.enc.idx.toNat < s.enc.buf.size.toNat) :
    encTicks 9 s = emitted (framedByte (payloadAt s.enc.buf.payload s.enc.idx)) (byteSent s.enc) s := by
  rw [encTicks_succ, encTick_byteStart_payload hs hlt, shifts_byte.encTicks_eight rfl rfl, emitted_emitted]
  rfl

/-- A start bit and the checksum. -/
theorem encTicks_checksum {s : State} (hs : s.enc.state = .byteStart)
    (hge : s.enc.buf.size.toNat ≤ s.enc.idx.toNat) :
    encTicks 9 s = emitted (framedByte s.enc.xor) { s.enc with sr := 0, cnt := 0, state := .endBit } s := by
  rw [encTicks_succ, encTick_byteStart_checksum hs hge, shifts_xor.encTicks_eight rfl rfl, emitted_emitted]
  rfl

theorem drop_msgBytes {m : Message} {i : BitVec 3} (hm : sizeOk m = true) (hi : i.toNat < m.size.toNat) :
    (msgBytes m).drop i.toNat = payloadAt m.payload i :: (msgBytes m).drop (i.toNat + 1) := by
  obtain ⟨hlen, hbyte⟩ := List.getElem?_eq_some_iff.mp (msgBytes_getElem? hm hi)
  rw [List.drop_eq_getElem_cons hlen, hbyte]

theorem drop_size_msgBytes (m : Message) : (msgBytes m).drop m.size.toNat = [] :=
  List.drop_eq_nil_of_le (List.length_take_le _ _)

/-- The `n` payload bytes left and the checksum. -/
theorem encTicks_body (n : Nat) {s : State} (hs : s.enc.state = .byteStart) (hm : sizeOk s.enc.buf = true)
    (hleft : s.enc.idx.toNat + n = s.enc.buf.size.toNat) (hxor : s.enc.xor = xorUpTo s.enc.buf s.enc.idx.toNat) :
    encTicks (9 * n + 9) s =
      emitted (((msgBytes s.enc.buf).drop s.enc.idx.toNat).flatMap framedByte ++ framedByte (cksum s.enc.buf))
        (bodySent s.enc) s := by
  induction n generalizing s with
  | zero =>
    have hidx : s.enc.idx = s.enc.buf.size := BitVec.eq_of_toNat_eq hleft
    rw [hidx, xorUpTo_size] at hxor
    have hsent : bodySent s.enc = { s.enc with sr := 0, cnt := 0, state := .endBit } := by
      rw [bodySent, ← hidx, ← hxor]
    rw [encTicks_checksum hs hleft.ge, hsent, hidx, drop_size_msgBytes, ← hxor]
    rfl
  | succ n ih =>
    have hlt : s.enc.idx.toNat < s.enc.buf.size.toNat := by omega
    have hnext := idx_add_one hm hlt
    have hleft' : (s.enc.idx + 1).toNat + n = s.enc.buf.size.toNat := by omega
    have hxor' : s.enc.xor ^^^ payloadAt s.enc.buf.payload s.enc.idx = xorUpTo s.enc.buf (s.enc.idx + 1).toNat := by
      rw [hnext, xorUpTo_succ hm hlt, hxor]
    have hticks : 9 * (n + 1) + 9 = 9 + (9 * n + 9) := by omega
    rw [hticks, encTicks_add, encTicks_payloadByte hs hlt, ih (s := emitted _ (byteSent s.enc) s) rfl hm hleft' hxor',
      emitted_emitted, drop_msgBytes hm hlt, ← hnext, List.flatMap_cons, List.append_assoc]
    rfl

/-- All payload bytes, the checksum and the end bit. -/
theorem encTicks_afterPreamble {s : State} (hs : s.enc.state = .byteStart) (hm : sizeOk s.enc.buf = true)
    (hidx : s.enc.idx = 0) (hxor : s.enc.xor = 0) :
    encTicks (9 * s.enc.buf.size.toNat + 9 + 1) s =
      emitted ((msgBytes s.enc.buf).flatMap framedByte ++ framedByte (cksum s.enc.buf) ++ [.one])
        (packetEnd s.cutoutEn (bodySent s.enc)) s := by
  have hbody := encTicks_body s.enc.buf.size.toNat hs hm (by rw [hidx]; exact Nat.zero_add _) (by rw [hidx]; exact hxor)
  rw [encTicks_add, hbody, encTicks_succ, encTick_endBit rfl, emitted_emitted, hidx]
  rfl

/-- The registers after the end bit of a packet of `m`, where `cut` is `CUTOUT_EN` and `st` the next state. -/
def packetSent (m : Message) (cut : Bool) (st : EncState) : Encoder where
  state := st
  buf := m
  cnt := 0
  idx := m.size
  sr := 0
  xor := cksum m
  cut := cut

/-- The whole preamble of `n + 2` ones, from the `IDLE` tick. -/
theorem encTicks_idle_preamble {n : Nat} {s : State} (hs : s.enc.state = .idle)
    (hlen : preambleLen s.params s.runMode = n + 2) (hmax : n + 2 ≤ 256) :
    encTicks (n + 2) s = emitted (List.replicate (n + 2) .one)
      (preambleSent (packetStart (nextPacket s) (n + 2) s.enc)) { s with mbxCnt := countDown s.mbxCnt } := by
  have hcnt : (BitVec.ofNat 8 (n + 2 - 1)).toNat = n + 1 := by
    rw [BitVec.toNat_ofNat]
    omega
  rw [encTicks_succ, encTick_idle hs, hlen,
    encTicks_preamble n (s := emitted _ (packetStart (nextPacket s) (n + 2) s.enc) _) rfl hcnt, emitted_emitted]
  rfl

/-- A packet, from its `IDLE` tick to its end bit. -/
theorem encTicks_packet {s : State} (hs : s.enc.state = .idle) (hm : sizeOk (nextPacket s) = true)
    (hmin : 2 ≤ preambleLen s.params s.runMode) (hmax : preambleLen s.params s.runMode ≤ 256) :
    encTicks (packetTicks (preambleLen s.params s.runMode) (nextPacket s)) s =
      emitted (packetSymbols (preambleLen s.params s.runMode) (nextPacket s))
        (packetSent (nextPacket s) s.cutoutEn (if s.cutoutEn then .cutout1 else .idle))
        { s with mbxCnt := countDown s.mbxCnt } := by
  obtain ⟨n, hn⟩ := Nat.exists_eq_add_of_le' hmin
  have hstart := encTicks_idle_preamble hs hn (hn ▸ hmax)
  have hticks : packetTicks (n + 2) (nextPacket s) = (n + 2) + (9 * (nextPacket s).size.toNat + 9 + 1) := by
    unfold packetTicks
    omega
  have hsymbols : packetSymbols (n + 2) (nextPacket s) = List.replicate (n + 2) .one ++
      ((msgBytes (nextPacket s)).flatMap framedByte ++ framedByte (cksum (nextPacket s)) ++ [.one]) := by
    simp only [packetSymbols, List.append_assoc]
  rw [hn, hticks, hsymbols, encTicks_add, hstart]
  exact (encTicks_afterPreamble (s := emitted _ (preambleSent (packetStart (nextPacket s) (n + 2) s.enc)) _)
    rfl hm rfl rfl).trans (emitted_emitted _ _ _ _ _)

/-- The two ticks of the cutout. -/
theorem encTicks_cutout {s : State} (hs : s.enc.state = .cutout1) :
    encTicks 2 s = emitted [.gap, .gap] (goTo .idle s.enc) s := by
  rw [encTicks_succ, encTick_cutout1 hs, encTicks_succ, encTick_cutout2 rfl, emitted_emitted]
  rfl

/-- The two ticks of the cutout after a packet. -/
theorem encTicks_packet_cutout {s : State} (hs : s.enc.state = .idle) (hm : sizeOk (nextPacket s) = true)
    (hmin : 2 ≤ preambleLen s.params s.runMode) (hmax : preambleLen s.params s.runMode ≤ 256)
    (hcut : s.cutoutEn = true) :
    encTicks (packetTicks (preambleLen s.params s.runMode) (nextPacket s) + 2) s =
      emitted (packetSymbols (preambleLen s.params s.runMode) (nextPacket s) ++ [.gap, .gap])
        (packetSent (nextPacket s) s.cutoutEn .idle) { s with mbxCnt := countDown s.mbxCnt } := by
  rw [encTicks_add, encTicks_packet hs hm hmin hmax, if_pos hcut, encTicks_cutout rfl, emitted_emitted]
  rfl

theorem length_msgBytes {m : Message} (hm : sizeOk m = true) : (msgBytes m).length = m.size.toNat := by
  obtain ⟨-, hmax⟩ := size_le_of_sizeOk hm
  exact List.length_take_of_le (hmax.trans (by decide : 5 ≤ 6))

theorem length_packetSymbols (n : Nat) {m : Message} (hm : sizeOk m = true) :
    (packetSymbols n m).length = packetTicks n m := by
  simp [packetSymbols, packetTicks, length_msgBytes hm, framedByte, byteSymbols]
  omega

/-- Settles O13: the runs of preamble, framed bytes, checksum and end bit follow one another. -/
theorem packetOnTheTrack : Obligations.PacketOnTheTrack := by
  unfold Obligations.PacketOnTheTrack
  intro s hs m n sent after hm hmin hmax
  have hpacket := encTicks_packet hs hm hmin hmax
  refine ⟨length_packetSymbols n hm, fun hcut => ?_, fun hcut => ?_⟩
  · rw [if_neg (Bool.eq_false_iff.mp hcut)] at hpacket
    exact hpacket
  · rw [if_pos hcut] at hpacket
    exact ⟨hpacket, encTicks_packet_cutout hs hm hmin hmax hcut⟩

/-! ## The encoder does not read policy (40_encoder R143, R144) -/

theorem SameWire.size {e e' : Encoder} (h : SameWire e e') : e.buf.size = e'.buf.size := h.1

theorem SameWire.state_idx_sr {e e' : Encoder} (h : SameWire e e') :
    e'.state = e.state ∧ e'.idx = e.idx ∧ e'.sr = e.sr := by
  obtain ⟨-, -, he⟩ := h
  rw [he]
  exact ⟨rfl, rfl, rfl⟩

/-- A write of the registers that neither reads nor writes the held message. -/
theorem SameWire.map {f : Encoder → Encoder} {e e' : Encoder}
    (hf : ∀ (e : Encoder) (b : Message), f { e with buf := b } = { f e with buf := b }) (h : SameWire e e') :
    SameWire (f e) (f e') := by
  obtain ⟨hsize, hpay, he⟩ := h
  obtain ⟨b, rfl⟩ : ∃ b, e' = { e with buf := b } := ⟨_, he⟩
  have hbuf : (f e).buf = e.buf := by
    have := congrArg Encoder.buf (hf e e.buf)
    exact this
  rw [hf e b]
  exact ⟨hbuf ▸ hsize, hbuf ▸ hpay, rfl⟩

theorem SameWire.packetStart {e e' : Encoder} {m m' : Message} (h : SameWire e e') (n : Nat) (hsize : m.size = m'.size)
    (hpay : m.payload = m'.payload) : SameWire (packetStart m n e) (packetStart m' n e') := by
  obtain ⟨-, -, he⟩ := h
  refine ⟨hsize, hpay, ?_⟩
  rw [he]
  rfl

theorem SameWire.byteLoaded {e e' : Encoder} (h : SameWire e e') : SameWire (byteLoaded e) (byteLoaded e') := by
  obtain ⟨hsize, hpay, he⟩ := h
  obtain ⟨b, rfl⟩ : ∃ b, e' = { e with buf := b } := ⟨_, he⟩
  exact ⟨hsize, hpay, by simp only [Machine.byteLoaded, hpay]⟩

/-- Two states hold for the encoder the same registers, mailbox, inputs and preamble length, and have emitted the same
symbols. -/
structure SameSignal (s s' : State) : Prop where
  wire : SameWire s.enc s'.enc
  size : s.mbx.size = s'.mbx.size
  payload : s.mbx.payload = s'.mbx.payload
  count : s.mbxCnt = s'.mbxCnt
  cutout : s.cutoutEn = s'.cutoutEn
  preamble : preambleLen s.params s.runMode = preambleLen s'.params s'.runMode
  track : s.track = s'.track

theorem SameSignal.emitted {s s' : State} (h : SameSignal s s') (l : List Symbol) {e e' : Encoder}
    (he : SameWire e e') : SameSignal (emitted l e s) (emitted l e' s') :=
  ⟨he, h.size, h.payload, h.count, h.cutout, h.preamble, congrArg (· ++ l) h.track⟩

theorem SameSignal.setCount {s s' : State} (h : SameSignal s s') (c : Byte) :
    SameSignal { s with mbxCnt := c } { s' with mbxCnt := c } :=
  ⟨h.wire, h.size, h.payload, rfl, h.cutout, h.preamble, h.track⟩

theorem SameSignal.nextPacket {s s' : State} (h : SameSignal s s') :
    (nextPacket s).size = (nextPacket s').size ∧ (nextPacket s).payload = (nextPacket s').payload := by
  unfold Machine.nextPacket
  rw [← h.count]
  split
  · exact ⟨rfl, rfl⟩
  · exact ⟨h.size, h.payload⟩

theorem sameSignal_encTick {s s' : State} (h : SameSignal s s') : SameSignal (encTick s) (encTick s') := by
  have hw := h.wire
  obtain ⟨hstate, hidx, hsr⟩ := hw.state_idx_sr
  cases hs : s.enc.state <;> have hs' := hstate.trans hs
  case idle =>
    obtain ⟨hsize, hpay⟩ := h.nextPacket
    rw [encTick_idle hs, encTick_idle hs', ← h.preamble, ← h.count]
    exact (h.setCount _).emitted _ (hw.packetStart _ hsize hpay)
  case preamble =>
    rw [encTick_preamble hs, encTick_preamble hs']
    exact h.emitted _ (hw.map fun _ _ => rfl)
  case byteStart =>
    rcases Nat.lt_or_ge s.enc.idx.toNat s.enc.buf.size.toNat with hlt | hge
    · have hlt' : s'.enc.idx.toNat < s'.enc.buf.size.toNat := by rw [hidx, ← hw.size]; exact hlt
      rw [encTick_byteStart_payload hs hlt, encTick_byteStart_payload hs' hlt']
      exact h.emitted _ hw.byteLoaded
    · have hge' : s'.enc.buf.size.toNat ≤ s'.enc.idx.toNat := by rw [hidx, ← hw.size]; exact hge
      rw [encTick_byteStart_checksum hs hge, encTick_byteStart_checksum hs' hge']
      exact h.emitted _ (hw.map fun _ _ => rfl)
  case byte =>
    rw [encTick_byte hs, encTick_byte hs', hsr]
    exact h.emitted _ (hw.map fun _ _ => rfl)
  case xor =>
    rw [encTick_xor hs, encTick_xor hs', hsr]
    exact h.emitted _ (hw.map fun _ _ => rfl)
  case endBit =>
    rw [encTick_endBit hs, encTick_endBit hs', ← h.cutout]
    exact h.emitted _ (hw.map fun _ _ => rfl)
  case cutout1 =>
    rw [encTick_cutout1 hs, encTick_cutout1 hs']
    exact h.emitted _ (hw.map fun _ _ => rfl)
  case cutout2 =>
    rw [encTick_cutout2 hs, encTick_cutout2 hs']
    exact h.emitted _ (hw.map fun _ _ => rfl)

theorem sameSignal_encTicks (n : Nat) {s s' : State} (h : SameSignal s s') :
    SameSignal (encTicks n s) (encTicks n s') := by
  induction n generalizing s s' with
  | zero => exact h
  | succ n ih => exact ih (sameSignal_encTick h)

/-- Settles O15, by induction on the ticks: no arm reads more than the two states share. -/
theorem encoderIgnoresPolicy : Obligations.EncoderIgnoresPolicy := by
  unfold Obligations.EncoderIgnoresPolicy
  intro s s' n hwire hsize hpay hcnt hcut hpre htrack
  have h := sameSignal_encTicks n ⟨hwire, hsize, hpay, hcnt, hcut, hpre, htrack⟩
  exact ⟨h.track, h.count, h.wire⟩

end Sys2Proof.Machine
end

section
/-! SUPPORT. The headers and the bytes of the built messages (41_builders R160 to R175), and the inverse of the speed
conversion (R165, R166). -/

namespace Sys2Proof.Machine

/-! ## Speed conversion (41_builders R165, R166) -/

theorem toRail_of_le_one {m : Nat} (steps : Nat) (h : m ≤ 1) : toRail m steps = m := if_pos h

theorem toRail_of_two_le {m : Nat} (steps : Nat) (h : 2 ≤ m) :
    toRail m steps = min ((m - 2) * steps / 125 + 2) (steps + 1) := if_neg (by omega)

theorem toRail_le {steps : Nat} (m : Nat) (h : 1 ≤ steps) : toRail m steps ≤ steps + 1 := by
  rcases Nat.lt_or_ge 1 m with hm | hm
  · exact toRail_of_two_le steps hm ▸ Nat.min_le_right _ _
  · rw [toRail_of_le_one steps hm]
    omega

theorem fromRail_of_le_one {r : Nat} (steps : Nat) (h : r ≤ 1) : fromRail r steps = r := if_pos h

theorem fromRail_add_two {q steps : Nat} (h : q + 2 ≤ steps + 1) :
    fromRail (q + 2) steps = (q * 125 + steps - 1) / steps + 2 := by
  rw [fromRail, if_neg (by omega), Nat.min_eq_left h, Nat.add_sub_cancel]

/-- The rounded-up quotient overshoots by less than `steps`, so it stays within the same rail step of 125. -/
theorem toRail_fromRail {r steps : Nat} (hr : r ≤ steps + 1) (hsteps : steps ≤ 125) :
    toRail (fromRail r steps) steps = r := by
  rcases Nat.lt_or_ge r 2 with hstop | hrun
  · have hone : r ≤ 1 := by omega
    rw [fromRail_of_le_one steps hone, toRail_of_le_one steps hone]
  · obtain ⟨q, rfl⟩ := Nat.exists_eq_add_of_le' hrun
    have hpos : 0 < steps := by omega
    have hlow : q * 125 ≤ (q * 125 + steps - 1) / steps * steps := by
      have := Nat.lt_div_mul_add (a := q * 125 + steps - 1) hpos
      omega
    have hhigh : (q * 125 + steps - 1) / steps * steps ≤ q * 125 + steps - 1 := Nat.div_mul_le_self _ _
    have hq : (q * 125 + steps - 1) / steps * steps / 125 = q := by omega
    rw [fromRail_add_two hr, toRail_of_two_le steps (Nat.le_add_left _ _), Nat.add_sub_cancel, hq, Nat.min_eq_left hr]

theorem fromRail_toRail_le {steps : Nat} (m : Nat) (h : 1 ≤ steps) : fromRail (toRail m steps) steps ≤ m := by
  rcases Nat.lt_or_ge 1 m with hm | hm
  · have hle := toRail_le m h
    have hrun : 2 ≤ toRail m steps := by rw [toRail_of_two_le steps hm]; omega
    obtain ⟨q, hq⟩ := Nat.exists_eq_add_of_le' hrun
    have hquot : q ≤ (m - 2) * steps / 125 := by rw [toRail_of_two_le steps hm] at hq; omega
    have hmul : q * 125 ≤ (m - 2) * steps := by omega
    rw [hq] at hle ⊢
    have hceil : (q * 125 + steps - 1) / steps ≤ m - 2 := by
      rw [← Nat.lt_add_one_iff, Nat.div_lt_iff_lt_mul h, Nat.add_one_mul]
      omega
    rw [fromRail_add_two hle]
    omega
  · rw [toRail_of_le_one steps hm, fromRail_of_le_one steps hm]

/-- Settles O41: `from_rail` rounds up where `to_rail` rounds down. -/
theorem speedConversionInverse : Obligations.SpeedConversionInverse := by
  unfold Obligations.SpeedConversionInverse
  intro steps m hpos hsteps
  have hle := toRail_le m hpos
  exact ⟨hle, toRail_fromRail hle hsteps, fun m' hm' => hm' ▸ fromRail_toRail_le m' hpos⟩

/-! ## Headers (41_builders R160) -/

theorem getD_payloadOf_of_length_le {l : List Byte} {k : Nat} (h : l.length ≤ k) :
    (payloadBytes (payloadOf l)).getD k 0 = 0 := by
  have hl : l.getD k 0 = 0 := List.getD_eq_default l 0 h
  match k with
  | 0 | 1 | 2 | 3 | 4 | 5 => exact hl
  | _ + 6 => rfl

theorem builtAs_mkMsg {l : List Byte} {n : Nat} (rep : Byte) (type : MsgType) (hn : l.length = n) (h2 : 2 ≤ n)
    (h5 : n ≤ 5) : BuiltAs (mkMsg rep type l) rep type n := by
  subst hn
  have hsize : (mkMsg rep type l).size.toNat = l.length := Nat.mod_eq_of_lt (by omega)
  exact ⟨rfl, rfl, hsize, h2, h5, fun k hk => getD_payloadOf_of_length_le hk⟩

/-- The number of address bytes (41_builders R161). -/
theorem addrBytes_length_eq (p : Params) (a : LocoAddr) :
    (addrBytes p a).length = if a.toNat < p.longAddrMin then 1 else 2 := by
  unfold addrBytes
  split <;> rfl

theorem builtAs_locoMsg {l : List Byte} {n : Nat} (p : Params) (a : LocoAddr) (rep : Byte) (hn : l.length = n)
    (h1 : 1 ≤ n) (h3 : n ≤ 3) :
    BuiltAs (mkMsg rep .loco (addrBytes p a ++ l)) rep .loco ((if a.toNat < p.longAddrMin then 1 else 2) + n) := by
  have hlen := addrBytes_length p a
  rw [← addrBytes_length_eq]
  exact builtAs_mkMsg _ _ (by rw [List.length_append, hn]) (by omega) (by omega)

theorem getD_fastClockMsg (p : Params) (mn : BitVec 6) (h : BitVec 5) (wd : BitVec 3) (r : BitVec 6) {k : Nat}
    (hk : (fastClockMsg p mn h wd r).size.toNat ≤ k) :
    (payloadBytes (fastClockMsg p mn h wd r).payload).getD k 0 = 0 :=
  getD_payloadOf_of_length_le ((List.length_take_le _ _).trans hk)

/-- Settles O38: a message has the size of the list it is built from, one or two address bytes among them. -/
theorem builtMessageHeaders : Obligations.BuiltMessageHeaders := by
  unfold Obligations.BuiltMessageHeaders
  intro p a v d f0 b funcs x y z w c k r n
  have loco {l : List Byte} (rep : Byte) (h1 : 1 ≤ l.length) (h3 : l.length ≤ 3) := builtAs_locoMsg p a rep rfl h1 h3
  have other {l : List Byte} (rep : Byte) (type : MsgType) (h2 : 2 ≤ l.length) (h5 : l.length ≤ 5) :=
    builtAs_mkMsg rep type rfl h2 h5
  refine ⟨loco _ (by simp) (by simp), loco _ (by simp) (by simp), loco _ (by simp) (by simp), ?group123, ?group45,
    other _ _ (by simp) (by simp), other _ _ (by simp) (by simp), other _ _ (by simp) (by simp),
    loco _ (by simp) (by simp), loco _ (by simp) (by simp), loco _ (by simp) (by simp),
    other _ _ (by simp) (by simp), other (l := [0xFF, 0x00]) _ _ (by simp) (by simp), other _ _ (by simp) (by simp),
    other _ _ (by simp) (by simp), ?cv, ?reg,
    fun mn h wd q => ⟨rfl, rfl, fun _ => getD_fastClockMsg p mn h wd q⟩⟩
  case group123 => rintro g (rfl | rfl | rfl) <;> exact loco _ (by simp [groupBytes]) (by simp [groupBytes])
  case group45 => rintro g (rfl | rfl) <;> exact loco _ (by simp [groupBytes]) (by simp [groupBytes])
  case cv =>
    simp only [List.forall_mem_cons]
    exact ⟨other _ _ (by simp) (by simp), other _ _ (by simp) (by simp), other _ _ (by simp) (by simp),
      other _ _ (by simp) (by simp), by simp⟩
  case reg =>
    simp only [List.forall_mem_cons]
    exact ⟨other _ _ (by simp) (by simp), other _ _ (by simp) (by simp), by simp⟩

/-! ## Fields of a byte as numbers -/

/-- A field that lies below the bits of `x` adds to it. -/
theorem toNat_or_of_lt {w : Nat} {x y : BitVec w} (k : Nat) (hx : 2 ^ k ∣ x.toNat) (hy : y.toNat < 2 ^ k) :
    (x ||| y).toNat = x.toNat + y.toNat := by
  obtain ⟨c, hc⟩ := hx
  rw [BitVec.toNat_or, hc, Nat.two_pow_add_eq_or_of_lt hy]

@[simp] theorem toNat_bitByte (b : Bool) : (bitByte b).toNat = b.toNat := by cases b <;> rfl

theorem toNat_bitByte_shiftLeft (b : Bool) {k : Nat} (hk : k < 8) : (bitByte b <<< k).toNat = b.toNat * 2 ^ k := by
  have hlt : b.toNat * 2 ^ k < 2 ^ 8 := by
    calc b.toNat * 2 ^ k ≤ 1 * 2 ^ k := Nat.mul_le_mul_right _ (Bool.toNat_le b)
      _ < 2 ^ 8 := by rw [Nat.one_mul]; exact Nat.pow_lt_pow_right (by decide) hk
  rw [BitVec.toNat_shiftLeft, toNat_bitByte, Nat.shiftLeft_eq, Nat.mod_eq_of_lt hlt]

theorem toNat_setWidth_ushiftRight {w m k : Nat} (x : BitVec w) (h : w ≤ k + m) :
    ((x >>> k).setWidth m).toNat = x.toNat / 2 ^ k := by
  have hlt : x.toNat < 2 ^ k * 2 ^ m := by
    rw [← Nat.pow_add]
    exact x.isLt.trans_le (Nat.pow_le_pow_right (by decide) h)
  rw [BitVec.toNat_setWidth, BitVec.toNat_ushiftRight, Nat.shiftRight_eq_div_pow,
    Nat.mod_eq_of_lt (Nat.div_lt_of_lt_mul hlt)]

@[simp] theorem toNat_cvHi (c : CvAddr) : (cvHi c).toNat = c.toNat / 256 :=
  toNat_setWidth_ushiftRight c (by decide)

@[simp] theorem toNat_cvLo (c : CvAddr) : (cvLo c).toNat = c.toNat % 256 := BitVec.toNat_setWidth 8 c

@[simp] theorem toNat_accLow (dec : BitVec 9) : (accLow dec).toNat = 0x80 + dec.toNat % 64 := by
  have hmask : (dec.setWidth 8 &&& 0x3F#8).toNat = dec.toNat % 64 := by
    rw [BitVec.toNat_and, BitVec.toNat_setWidth]
    exact (Nat.and_two_pow_sub_one_eq_mod _ 6).trans (by omega)
  have hor := toNat_or_of_lt (x := 0x80#8) 6 (by decide) (hmask ▸ Nat.mod_lt _ (by decide))
  rw [hmask] at hor
  exact hor

/-- The three high address bits, inverted (41_builders R169). -/
@[simp] theorem toNat_accHigh (dec : BitVec 9) : (accHigh dec).toNat = 16 * (7 - dec.toNat / 64) := by
  have hmask : ((~~~(dec >>> 6)).setWidth 8 &&& (0x7 : Byte)).toNat = 7 - dec.toNat / 64 := by
    rw [BitVec.toNat_and, BitVec.toNat_setWidth, BitVec.toNat_not, BitVec.toNat_ushiftRight, Nat.shiftRight_eq_div_pow]
    exact (Nat.and_two_pow_sub_one_eq_mod _ 3).trans (by omega)
  have hshift : (accHigh dec).toNat = _ <<< 4 % 2 ^ 8 := BitVec.toNat_shiftLeft
  rw [hmask, Nat.shiftLeft_eq] at hshift
  omega

theorem toNat_groupBits (funcs : BitVec 29) {g : Nat} (hg : groupWidth g ≤ 8) :
    (groupBits funcs g).toNat = funcs.toNat / 2 ^ groupLow g % 2 ^ groupWidth g := by
  have hmask : 2 ^ groupWidth g - 1 < 2 ^ 8 :=
    (Nat.sub_lt (Nat.two_pow_pos _) Nat.one_pos).trans_le (Nat.pow_le_pow_right (by decide) hg)
  rw [groupBits, BitVec.toNat_and, BitVec.toNat_ofNat, Nat.mod_eq_of_lt hmask, BitVec.toNat_setWidth,
    BitVec.toNat_ushiftRight, Nat.shiftRight_eq_div_pow, Nat.and_two_pow_sub_one_eq_mod,
    Nat.mod_mod_of_dvd _ (Nat.pow_dvd_pow 2 hg)]

theorem toNat_or_cvHi {base : Byte} (c : CvAddr) (h : 4 ∣ base.toNat) :
    (base ||| cvHi c).toNat = base.toNat + c.toNat / 256 := by
  rw [toNat_or_of_lt 2 h (by rw [toNat_cvHi]; omega), toNat_cvHi]

theorem toNat_or_setWidth {base : Byte} (r : BitVec 3) (h : 8 ∣ base.toNat) :
    (base ||| r.setWidth 8).toNat = base.toNat + r.toNat := by
  have hr : (r.setWidth 8).toNat = r.toNat := BitVec.toNat_setWidth_of_le (by decide)
  rw [toNat_or_of_lt 3 h (hr ▸ r.isLt), hr]

theorem toNat_bitData {base : Byte} (v : Bool) (b : BitPos) (h : 16 ∣ base.toNat) :
    (bitData base v b).toNat = base.toNat + 8 * v.toNat + b.toNat := by
  have hv := Bool.toNat_le v
  have hbit := toNat_bitByte_shiftLeft v (k := 3) (by decide)
  have hor := toNat_or_of_lt (x := base) (y := bitByte v <<< 3) 4 h (by omega)
  rw [bitData, toNat_or_setWidth b (by omega), hor, hbit]
  omega

/-! ## Instruction bytes of locomotive messages (41_builders R167, R168) -/

/-- The bits `01DCSSSS` of a speed byte, `c` the bit under the direction and `low` the lowest four. -/
theorem toNat_speedByte (s : Byte) {c low : Byte} (hc : 16 ∣ c.toNat) (hc32 : c.toNat < 32) (hlow : low.toNat < 16) :
    (0x40#8 ||| (bitByte (speedDir s) <<< 5) ||| c ||| low).toNat =
      0x40 + 32 * (s.toNat / 128) + c.toNat + low.toNat := by
  have hbit : (speedDir s).toNat = s.toNat / 2 ^ 7 % 2 := Nat.toNat_testBit _ _
  have hdir : (bitByte (speedDir s) <<< 5).toNat = 32 * (s.toNat / 128) := by
    rw [toNat_bitByte_shiftLeft _ (by decide), hbit]
    omega
  have h5 : (0x40#8 ||| (bitByte (speedDir s) <<< 5)).toNat = 0x40 + 32 * (s.toNat / 128) :=
    hdir ▸ toNat_or_of_lt (x := 0x40#8) 6 (by decide) (by omega)
  have h4 := toNat_or_of_lt (x := 0x40#8 ||| (bitByte (speedDir s) <<< 5)) (y := c) 5 (by omega) hc32
  rw [toNat_or_of_lt 4 (by omega) hlow, h4, h5]

theorem speedMag_eq (s : Byte) : speedMag s = s.toNat % 128 := BitVec.extractLsb'_toNat ..

theorem code28_le {r : Nat} (h : r ≤ 29) : code28 r ≤ 31 := by
  unfold code28
  split <;> [skip; split] <;> omega

theorem toNat_speedByte28 (s : Byte) : (speedByte28 s).toNat =
    0x40 + 32 * (s.toNat / 128) + 16 * (code28 (toRail (s.toNat % 128) 28) % 2) +
      code28 (toRail (s.toNat % 128) 28) / 2 := by
  have hcode : code28 (toRail (s.toNat % 128) 28) ≤ 31 := code28_le (toRail_le _ (by decide))
  rw [speedByte28, speedMag_eq]
  generalize code28 (toRail (s.toNat % 128) 28) = w at hcode ⊢
  have hw : (BitVec.ofNat 8 w).toNat = w := Nat.mod_eq_of_lt (by omega)
  have hlow : (BitVec.ofNat 8 w &&& 1).toNat = w % 2 := by
    rw [BitVec.toNat_and, hw]
    exact Nat.and_one_is_mod w
  have hc : ((BitVec.ofNat 8 w &&& 1) <<< 4).toNat = 16 * (w % 2) := by
    rw [BitVec.toNat_shiftLeft, hlow, Nat.shiftLeft_eq]
    omega
  have hhigh : (BitVec.ofNat 8 w >>> 1).toNat = w / 2 := by
    rw [BitVec.toNat_ushiftRight, hw, Nat.shiftRight_eq_div_pow]
  refine (toNat_speedByte s ?_ ?_ ?_).trans ?_ <;> omega

theorem toNat_speedByte14 (s : Byte) (f0 : Bool) : (speedByte14 s f0).toNat =
    0x40 + 32 * (s.toNat / 128) + 16 * f0.toNat + toRail (s.toNat % 128) 14 := by
  have hf0 := Bool.toNat_le f0
  have hc := toNat_bitByte_shiftLeft f0 (k := 4) (by decide)
  have hle : toRail (s.toNat % 128) 14 ≤ 15 := toRail_le _ (by decide)
  have hrail : (BitVec.ofNat 8 (toRail (s.toNat % 128) 14)).toNat = toRail (s.toNat % 128) 14 :=
    Nat.mod_eq_of_lt (by omega)
  rw [speedByte14, speedMag_eq]
  refine (toNat_speedByte s ?_ ?_ ?_).trans ?_ <;> omega

/-- The byte of group 1: F0 stands above F4 to F1. -/
theorem toNat_group1 (funcs : BitVec 29) :
    (0x80#8 ||| (bitByte (funcs.getLsbD 0) <<< 4) ||| (funcs.extractLsb' 1 4).setWidth 8).toNat =
      0x80 + 16 * (funcs.toNat % 2) + funcs.toNat / 2 % 16 := by
  have hbit : (funcs.getLsbD 0).toNat = funcs.toNat / 2 ^ 0 % 2 := Nat.toNat_testBit _ _
  have hf0 := toNat_bitByte_shiftLeft (funcs.getLsbD 0) (k := 4) (by decide)
  have hlow : ((funcs.extractLsb' 1 4).setWidth 8).toNat = funcs.toNat / 2 % 16 := by
    rw [BitVec.toNat_setWidth_of_le (by decide), BitVec.extractLsb'_toNat, Nat.shiftRight_eq_div_pow]
  have h4 := toNat_or_of_lt (x := 0x80#8) (y := bitByte (funcs.getLsbD 0) <<< 4) 5 (by decide) (by omega)
  have hbase : (0x80#8).toNat = 0x80 := rfl
  rw [toNat_or_of_lt 4 (by omega) (by omega), h4, hlow]
  omega

theorem toNat_or_groupBits {base : Byte} (funcs : BitVec 29) {g : Nat} (hg : groupWidth g = 4)
    (h : 16 ∣ base.toNat) :
    (base ||| groupBits funcs g).toNat = base.toNat + funcs.toNat / 2 ^ groupLow g % 16 := by
  have hbits : (groupBits funcs g).toNat = funcs.toNat / 2 ^ groupLow g % 16 := by
    rw [toNat_groupBits funcs (by omega), hg]
    rfl
  rw [toNat_or_of_lt 4 h (by omega), hbits]

/-! ## Bytes of messages (41_builders R160, R161) -/

theorem byteValues_mkMsg {l : List Byte} (rep : Byte) (type : MsgType) (h : l.length ≤ 6) :
    byteValues (mkMsg rep type l) = l.map BitVec.toNat := by
  rw [byteValues, msgBytes_mkMsg rep type h]

theorem map_toNat_addrBytes {p : Params} (a : LocoAddr) (hp : p.longAddrMin ≤ 128) :
    (addrBytes p a).map BitVec.toNat = addrValues p a := by
  have hlow : (a.setWidth 8).toNat = a.toNat % 256 := BitVec.toNat_setWidth 8 a
  unfold addrBytes addrValues
  split
  case isTrue hshort => rw [List.map_singleton, hlow, Nat.mod_eq_of_lt (by omega)]
  case isFalse => rw [List.map_cons, List.map_singleton, hlow, ← toNat_longAddrHigh]; rfl

theorem byteValues_locoMsg {p : Params} {a : LocoAddr} {l : List Byte} {values : List Nat} (rep : Byte)
    (type : MsgType) (hp : p.longAddrMin ≤ 128) (hl : l.length ≤ 4) (hvalues : l.map BitVec.toNat = values) :
    byteValues (mkMsg rep type (addrBytes p a ++ l)) = addrValues p a ++ values := by
  have hlen := addrBytes_length p a
  rw [byteValues_mkMsg _ _ (by rw [List.length_append]; omega), List.map_append, map_toNat_addrBytes a hp, hvalues]

/-- Settles O39: the fields of each instruction byte do not overlap, so the byte is their sum. -/
theorem locoMessageBytes : Obligations.LocoMessageBytes := by
  unfold Obligations.LocoMessageBytes
  intro p a v f0 funcs hp _ d m rail w f
  have speed {l : List Byte} {values : List Nat} (hl : l.length ≤ 4) :=
    byteValues_locoMsg (a := a) (values := values) p.repeatSpeed .loco hp hl
  have group (g : Nat) {values : List Nat} (h : (groupBytes g funcs).map BitVec.toNat = values) :
      byteValues (groupMsg p a g funcs) = addrValues p a ++ values :=
    byteValues_locoMsg _ _ hp ((groupBytes_length g funcs).2.trans (by decide)) h
  have single {b : Byte} {n : Nat} (h : b.toNat = n) : [b].map BitVec.toNat = [n] := congrArg ([·]) h
  exact ⟨speed (by simp) rfl, speed (by simp) (single (toNat_speedByte28 v)),
    speed (by simp) (single (toNat_speedByte14 v f0)), group 1 (single (toNat_group1 funcs)),
    group 2 (single (toNat_or_groupBits funcs rfl (by decide))),
    group 3 (single (toNat_or_groupBits funcs rfl (by decide))),
    group 4 (congrArg ([0xDE, ·]) (toNat_groupBits funcs (by decide))),
    group 5 (congrArg ([0xDF, ·]) (toNat_groupBits funcs (by decide)))⟩

/-! ## Accessory and CV packets (41_builders R169 to R175) -/

theorem toNat_or_accHigh (dec : BitVec 9) : (0x80#8 ||| accHigh dec).toNat = 0x80 + 16 * (7 - dec.toNat / 64) := by
  have hhigh := toNat_accHigh dec
  rw [toNat_or_of_lt 7 (by decide) (by omega), hhigh]
  rfl

theorem byteValues_accMsg (p : Params) (x : BitVec 12) (act : Bool) : byteValues (accMsg p x act) =
    [0x80 + x.toNat / 8 % 64, 0x80 + 16 * (7 - x.toNat / 512) + 8 * act.toNat + x.toNat % 8] := by
  have hact := Bool.toNat_le act
  have hdec : ((x >>> 3).setWidth 9).toNat = x.toNat / 8 := toNat_setWidth_ushiftRight x (by decide)
  have hddd : ((x &&& 7).setWidth 8).toNat = x.toNat % 8 := by
    rw [BitVec.toNat_setWidth, BitVec.toNat_and]
    exact (congrArg (· % 2 ^ 8) (Nat.and_two_pow_sub_one_eq_mod _ 3)).trans (by omega)
  have hbit := toNat_bitByte_shiftLeft act (k := 3) (by decide)
  have hhigh := toNat_or_accHigh ((x >>> 3).setWidth 9)
  have h3 := toNat_or_of_lt (x := 0x80#8 ||| accHigh ((x >>> 3).setWidth 9)) (y := bitByte act <<< 3) 4
    (by omega) (by omega)
  have hbyte : (0x80#8 ||| accHigh ((x >>> 3).setWidth 9) ||| (bitByte act <<< 3) ||| (x &&& 7).setWidth 8).toNat =
      0x80 + 16 * (7 - x.toNat / 512) + 8 * act.toNat + x.toNat % 8 := by
    rw [toNat_or_of_lt 3 (by omega) (by omega), h3, hddd]
    omega
  rw [accMsg, byteValues_mkMsg _ _ (by simp), List.map_cons, List.map_singleton, toNat_accLow, hdec]
  exact congrArg ([_, ·]) hbyte

theorem byteValues_xaccMsg (p : Params) (e : BitVec 11) (asp : BitVec 5) : byteValues (xaccMsg p e asp) =
    [0x80 + e.toNat / 4 % 64, 16 * (7 - e.toNat / 256) + 2 * (e.toNat % 4) + 1, asp.toNat] := by
  have hdec : ((e >>> 2).setWidth 9).toNat = e.toNat / 4 := toNat_setWidth_ushiftRight e (by decide)
  have hpp : ((e &&& 3).setWidth 8 <<< 1 : Byte).toNat = 2 * (e.toNat % 4) := by
    have hmask : (e &&& 3).toNat = e.toNat % 4 := (BitVec.toNat_and ..).trans (Nat.and_two_pow_sub_one_eq_mod _ 2)
    rw [BitVec.toNat_shiftLeft, BitVec.toNat_setWidth, hmask, Nat.shiftLeft_eq]
    omega
  have hhigh := toNat_accHigh ((e >>> 2).setWidth 9)
  have h1 := toNat_or_of_lt (x := accHigh ((e >>> 2).setWidth 9)) (y := (e &&& 3).setWidth 8 <<< 1) 4
    (by omega) (by omega)
  have hone : (0x01#8).toNat = 1 := rfl
  have hbyte : (accHigh ((e >>> 2).setWidth 9) ||| ((e &&& 3).setWidth 8 <<< 1) ||| 0x01#8).toNat =
      16 * (7 - e.toNat / 256) + 2 * (e.toNat % 4) + 1 := by
    rw [toNat_or_of_lt 1 (by omega) (by decide), h1]
    omega
  have hasp : (asp.setWidth 8).toNat = asp.toNat := BitVec.toNat_setWidth_of_le (by decide)
  rw [xaccMsg, byteValues_mkMsg _ _ (by simp), List.map_cons, List.map_cons, List.map_singleton, toNat_accLow,
    hdec, hasp]
  exact congrArg ([_, ·, _]) hbyte

/-- The last three bytes of a packet on a CV (41_builders R172, R173, R175). -/
theorem map_toNat_cvPacket {base : Byte} (c : CvAddr) (d : Byte) (h : 4 ∣ base.toNat) :
    [base ||| cvHi c, cvLo c, d].map BitVec.toNat = [base.toNat + c.toNat / 256, c.toNat % 256, d.toNat] := by
  rw [List.map_cons, List.map_cons, List.map_singleton, toNat_or_cvHi c h, toNat_cvLo]

theorem map_toNat_cvBitPacket {base data : Byte} (c : CvAddr) (v : Bool) (b : BitPos) (h : 4 ∣ base.toNat)
    (hdata : 16 ∣ data.toNat) : [base ||| cvHi c, cvLo c, bitData data v b].map BitVec.toNat =
      [base.toNat + c.toNat / 256, c.toNat % 256, data.toNat + 8 * v.toNat + b.toNat] := by
  rw [map_toNat_cvPacket c _ h, toNat_bitData v b hdata]

theorem byteValues_pomAccMsg (p : Params) (dec : BitVec 9) (c : CvAddr) (d : Byte) : byteValues (pomAccMsg p dec c d) =
    [0x80 + dec.toNat % 64, 0x80 + 16 * (7 - dec.toNat / 64), 0xEC + c.toNat / 256, c.toNat % 256, d.toNat] := by
  rw [pomAccMsg, byteValues_mkMsg _ _ (by simp), List.map_cons, List.map_cons, toNat_accLow,
    map_toNat_cvPacket c d (by decide)]
  exact congrArg (_ :: · :: _) (toNat_or_accHigh dec)

/-- Settles O40: the fields of each byte do not overlap, so the byte is their sum. -/
theorem otherMessageBytes : Obligations.OtherMessageBytes := by
  unfold Obligations.OtherMessageBytes
  intro p a x y z dec c d k r b hp _ hi lo
  have other {l : List Byte} {values : List Nat} {rep : Byte} {type : MsgType} (hl : l.length ≤ 6)
      (h : l.map BitVec.toNat = values) : byteValues (mkMsg rep type l) = values := (byteValues_mkMsg _ _ hl).trans h
  have pom {l : List Byte} {values : List Nat} (hl : l.length ≤ 4) :=
    byteValues_locoMsg (a := a) (values := values) p.repeatProg .loco hp hl
  refine ⟨byteValues_accMsg p x b, byteValues_xaccMsg p y z, rfl, ?stop, byteValues_pomAccMsg p dec c d,
    pom (by simp) (map_toNat_cvPacket c d (by decide)), pom (by simp) (map_toNat_cvPacket c d (by decide)),
    pom (by simp) (map_toNat_cvBitPacket c b k (by decide) (by decide)),
    other (by simp) (map_toNat_cvPacket c d (by decide)), other (by simp) (map_toNat_cvPacket c d (by decide)),
    other (by simp) (map_toNat_cvBitPacket c b k (by decide) (by decide)),
    other (by simp) (map_toNat_cvBitPacket c b k (by decide) (by decide)),
    other (by simp) (congrArg ([·, _]) (toNat_or_setWidth r (by decide))),
    other (by simp) (congrArg ([·, _]) (toNat_or_setWidth r (by decide)))⟩
  case stop => cases b <;> rfl

end Sys2Proof.Machine
end

section
/-! SUPPORT. The deduplicating insert, the searches for an extreme value, and the repeat buffer (42_organizer R213,
R214). -/

namespace Sys2Proof.Machine

/-! ## The low-priority insert (42_organizer R213) -/

/-- No slot has the key exactly where no live entry has it. -/
theorem Ring.findKey_eq_none {q : Ring} {key : Key} : q.findKey key = none ↔ ∀ x ∈ q.live, keyOf x ≠ key := by
  simp only [Ring.findKey, Ring.live, List.find?_eq_none, List.mem_filterMap, beq_iff_eq, Option.map_eq_some_iff]
  exact ⟨fun h x ⟨j, hj, hx⟩ hk => h j hj ⟨x, hx, hk⟩, fun h j hj ⟨x, hx, hk⟩ => h x ⟨j, hj, hx⟩ hk⟩

section Insert

variable {n : Nat} {q : Ring}

/-- A live entry is the message in its slot. -/
theorem Ring.live_getElem? (h : q.Ok n) {k : Nat} (hk : k < q.count) : q.live[k]? = q.slots[(q.rd + k) % n]? := by
  have hlt : (q.rd + k) % n < q.slots.length := by
    rw [h.1]
    exact Nat.mod_lt _ (Nat.zero_lt_of_lt h.2.1)
  simp [Ring.live_eq_map h, hk, hlt]

/-- A slot found by key holds a live entry of that key. -/
theorem Ring.findKey_eq_some (h : q.Ok n) {key : Key} {j : Nat} (hj : q.findKey key = some j) :
    ∃ k x, k < q.count ∧ j = (q.rd + k) % n ∧ q.live[k]? = some x ∧ keyOf x = key := by
  obtain ⟨k, hk, rfl⟩ := List.mem_map.mp (List.mem_of_find?_eq_some hj)
  have hk : k < q.count := List.mem_range.mp hk
  have hslot : q.slots[(q.rd + k) % q.slots.length]?.map keyOf = some key := beq_iff_eq.mp (List.find?_some hj :)
  obtain ⟨x, hx, hkey⟩ := Option.map_eq_some_iff.mp hslot
  rw [h.1] at hx ⊢
  exact ⟨k, x, hk, rfl, (Ring.live_getElem? h hk).trans hx, hkey⟩

theorem lpInsertRing_eq_push {m : Message} (hm : (keyOf m).isRaw = true ∨ ∀ x ∈ q.live, keyOf x ≠ keyOf m) :
    lpInsertRing q m = q.push m := by
  unfold lpInsertRing
  rcases hm with hraw | hnone
  · rw [if_pos hraw]
  · rw [Ring.findKey_eq_none.mpr hnone, ite_self]

theorem lpInsertRing_eq_replace (h : q.Ok n) {m : Message} (hraw : (keyOf m).isRaw = false)
    (hm : ∃ x ∈ q.live, keyOf x = keyOf m) :
    ∃ k x, k < q.count ∧ lpInsertRing q m = some (q.replace ((q.rd + k) % n) m) ∧
      q.live[k]? = some x ∧ keyOf x = keyOf m := by
  cases hf : q.findKey (keyOf m) with
  | none =>
    obtain ⟨x, hx, hkey⟩ := hm
    exact absurd hkey (Ring.findKey_eq_none.mp hf x hx)
  | some j =>
    obtain ⟨k, x, hk, rfl, hx, hkey⟩ := Ring.findKey_eq_some h hf
    exact ⟨k, x, hk, by simp [lpInsertRing, hraw, hf], hx, hkey⟩

end Insert

/-- Settles O29: the search by key answers a live entry of the key exactly where there is one. -/
theorem lowPriorityInsertRule : Obligations.LowPriorityInsertRule := by
  unfold Obligations.LowPriorityInsertRule
  intro n q m h
  refine ⟨lpInsertRing_eq_push, fun hraw hm => ?_⟩
  obtain ⟨k, x, hk, hq, hx, hkey⟩ := lpInsertRing_eq_replace h hraw hm
  exact ⟨_, k, x, hq, Ring.replace_ok _ m h, rfl, rfl, hx, hkey, Ring.live_replace h hk⟩

/-! ### One waiting entry of a key -/

theorem keysOnce_iff_pairwise {l : List Message} :
    KeysOnce l ↔ (l.map keyOf).Pairwise fun k k' => k.isRaw = false → k ≠ k' := by
  rw [List.pairwise_map, List.pairwise_iff_getElem]
  constructor
  · intro h i j hi hj hij hraw hkey
    exact hij.ne (h i j _ _ (List.getElem?_eq_getElem hi) (List.getElem?_eq_getElem hj) hraw hkey)
  · intro h i j x y hx hy hraw hkey
    obtain ⟨hi, rfl⟩ := List.getElem?_eq_some_iff.mp hx
    obtain ⟨hj, rfl⟩ := List.getElem?_eq_some_iff.mp hy
    rcases Nat.lt_trichotomy i j with hij | hij | hij
    · exact absurd hkey (h i j hi hj hij hraw)
    · exact hij
    · exact absurd hkey.symm (h j i hj hi hij (hkey ▸ hraw))

theorem KeysOnce.concat {l : List Message} {m : Message} (h : KeysOnce l)
    (hm : (keyOf m).isRaw = true ∨ ∀ x ∈ l, keyOf x ≠ keyOf m) : KeysOnce (l ++ [m]) := by
  rw [keysOnce_iff_pairwise] at h ⊢
  rw [List.map_append, List.pairwise_append]
  refine ⟨h, List.pairwise_singleton _ _, fun k hk k' hk' hraw => ?_⟩
  obtain ⟨x, hx, rfl⟩ := List.mem_map.mp hk
  rw [List.mem_singleton.mp hk']
  rcases hm with hm | hm
  · exact fun he => by simp [he, hm] at hraw
  · exact hm x hx

/-- A replacement by a message of the same key leaves the keys. -/
theorem KeysOnce.set {l : List Message} {k : Nat} {x m : Message} (h : KeysOnce l) (hx : l[k]? = some x)
    (hkey : keyOf x = keyOf m) : KeysOnce (l.set k m) := by
  obtain ⟨hk, rfl⟩ := List.getElem?_eq_some_iff.mp hx
  rw [keysOnce_iff_pairwise] at h ⊢
  have hself : (l.map keyOf).set k (keyOf m) = l.map keyOf := by
    rw [← hkey, ← List.getElem_map keyOf (h := by simpa using hk), List.set_getElem_self]
  rwa [List.map_set, hself]

theorem KeysOnce.tail {l : List Message} (h : KeysOnce l) : KeysOnce l.tail := by
  rw [keysOnce_iff_pairwise] at h ⊢
  rw [List.map_tail]
  exact h.tail

/-- A well-shaped queue in which no key that is not RAW waits twice. -/
def DedupQueue (n : Nat) (q : Ring) : Prop := q.Ok n ∧ KeysOnce q.live

theorem DedupQueue.lpInsert {n : Nat} {q : Ring} (h : DedupQueue n q) (m : Message) :
    DedupQueue n ((lpInsertRing q m).getD q) := by
  obtain ⟨hok, hq⟩ := h
  refine ⟨lpInsertRing_ok m hok, ?_⟩
  by_cases hm : (keyOf m).isRaw = true ∨ ∀ x ∈ q.live, keyOf x ≠ keyOf m
  · rw [lpInsertRing_eq_push hm]
    cases hp : q.push m with
    | none => exact hq
    | some q' => exact (Ring.live_push hok hp).symm ▸ hq.concat hm
  · obtain ⟨hraw, hx⟩ : (keyOf m).isRaw = false ∧ ∃ x ∈ q.live, keyOf x = keyOf m := by simpa using hm
    obtain ⟨k, x, hk, hins, hx, hkey⟩ := lpInsertRing_eq_replace hok hraw hx
    rw [hins, Option.getD_some, Ring.live_replace hok hk]
    exact hq.set hx hkey

theorem DedupQueue.pop {n : Nat} {q : Ring} (h : DedupQueue n q) (he : q.empty = false) : DedupQueue n q.pop :=
  ⟨Ring.pop_ok h.1, (Ring.live_pop h.1 he).symm ▸ h.2.tail⟩

/-! ## The first of the extreme values (42_organizer R210, R214) -/

/-- The first of a list's values that is below all of them in an antisymmetric order. -/
theorem findIdx?_all_eq_some {l : List Nat} {le : Nat → Nat → Bool} (hle : ∀ x y, le x y → le y x → x = y) {i : Nat} :
    l.findIdx? (fun x => l.all (le x)) = some i ↔
      ∃ x, l[i]? = some x ∧ (∀ y ∈ l, le x y) ∧ ∀ j y, j < i → l[j]? = some y → y ≠ x := by
  simp only [findIdx?_eq_some, List.all_eq_true, List.all_eq_false]
  refine exists_congr fun x => and_congr_right fun hx => and_congr_right fun hall => ?_
  refine forall₄_congr fun j y _ hy => ⟨?_, fun hne => ⟨x, List.mem_of_getElem? hx, fun h => ?_⟩⟩
  · rintro ⟨z, hz, hlt⟩ rfl
    exact hlt (hall z hz)
  · exact hne (hle y x h (hall y (List.mem_of_getElem? hy)))

theorem maxIdx_eq_some {l : List Nat} {i : Nat} :
    maxIdx l = some i ↔ ∃ x, l[i]? = some x ∧ (∀ y ∈ l, y ≤ x) ∧ ∀ j y, j < i → l[j]? = some y → y ≠ x := by
  refine (findIdx?_all_eq_some fun x y hxy hyx => ?_).trans (by simp)
  simp only [decide_eq_true_eq] at hxy hyx
  omega

theorem minIdx_eq_some {l : List Nat} {i : Nat} :
    minIdx l = some i ↔ ∃ x, l[i]? = some x ∧ (∀ y ∈ l, x ≤ y) ∧ ∀ j y, j < i → l[j]? = some y → y ≠ x := by
  refine (findIdx?_all_eq_some fun x y hxy hyx => ?_).trans (by simp)
  simp only [decide_eq_true_eq] at hxy hyx
  omega

/-! ## The repeat buffer (42_organizer R214) -/

theorem rptMatches_iff {k : Key} {e : RptEntry} : rptMatches k e = true ↔ e.cnt ≠ 0 ∧ keyOf e.msg = k := by
  simp [rptMatches]

theorem rptMatches_eq_false {k : Key} {e : RptEntry} :
    rptMatches k e = false ↔ e.cnt = 0 ∨ keyOf e.msg ≠ k := by
  rw [← Bool.not_eq_true, rptMatches_iff, not_and_or, not_not]

section Repeats

variable {l : List RptEntry} {m : Message} {j : Nat} {x : RptEntry}

theorem rptPut_of_pending (hx : l[j]? = some x) (hm : rptMatches (keyOf m) x = true)
    (hfirst : ∀ k y, k < j → l[k]? = some y → rptMatches (keyOf m) y = false) : rptPut m l = l.set j ⟨m, m.rep⟩ := by
  have hf : l.findIdx? (rptMatches (keyOf m)) = some j := findIdx?_eq_some.mpr ⟨x, hx, hm, hfirst⟩
  simp [rptPut, hf]

theorem rptPut_of_new (hnone : ∀ y ∈ l, rptMatches (keyOf m) y = false) :
    rptPut m l = if m.rep = 0 then l else l.set (rptSlot l) ⟨m, m.rep⟩ := by
  simp only [rptPut, List.findIdx?_eq_none_iff.mpr hnone]

theorem rptSlot_of_free (hx : l[j]? = some x) (h0 : x.cnt = 0)
    (hfirst : ∀ k y, k < j → l[k]? = some y → y.cnt ≠ 0) : rptSlot l = j := by
  have hf : (l.findIdx? fun e => e.cnt == 0) = some j :=
    findIdx?_eq_some.mpr ⟨x, hx, beq_iff_eq.mpr h0, fun k y hk hy => beq_eq_false_iff_ne.mpr (hfirst k y hk hy)⟩
  simp only [rptSlot, hf]

theorem rptSlot_of_full (hx : l[j]? = some x) (hfull : ∀ y ∈ l, y.cnt ≠ 0)
    (hmin : ∀ y ∈ l, x.cnt.toNat ≤ y.cnt.toNat)
    (hfirst : ∀ k y, k < j → l[k]? = some y → x.cnt.toNat < y.cnt.toNat) : rptSlot l = j := by
  have hf : (l.findIdx? fun e => e.cnt == 0) = none := 
    List.findIdx?_eq_none_iff.mpr fun y hy => beq_eq_false_iff_ne.mpr (hfull y hy)
  have hm : minIdx (l.map fun e => e.cnt.toNat) = some j := by
    refine minIdx_eq_some.mpr ⟨x.cnt.toNat, by simp [hx], by simpa using hmin, fun k c hk hc => ?_⟩
    obtain ⟨y, hy, rfl⟩ : ∃ y, l[k]? = some y ∧ y.cnt.toNat = c := by simpa using hc
    exact (hfirst k y hk hy).ne'
  simp only [rptSlot, hf, hm, Option.getD_some]

theorem rptSelect_eq_none (h : ∀ y ∈ l, y.cnt = 0) : rptSelect l = none := by
  rw [rptSelect, if_pos]
  simpa using h

theorem rptSelect_eq_some (hx : l[j]? = some x) (hc : x.cnt ≠ 0) (hmax : ∀ y ∈ l, y.cnt.toNat ≤ x.cnt.toNat)
    (hfirst : ∀ k y, k < j → l[k]? = some y → y.cnt.toNat < x.cnt.toNat) : rptSelect l = some j := by
  rw [rptSelect, if_neg, maxIdx_eq_some]
  · refine ⟨x.cnt.toNat, by simp [hx], by simpa using hmax, fun k c hk hc => ?_⟩
    obtain ⟨y, hy, rfl⟩ : ∃ y, l[k]? = some y ∧ y.cnt.toNat = c := by simpa using hc
    exact (hfirst k y hk hy).ne
  · exact fun h => hc (by simpa using List.all_eq_true.mp h x (List.mem_of_getElem? hx))

theorem rptClear_getElem? (key : Key) (hx : l[j]? = some x) :
    (rptClear key l)[j]? = some (if x.cnt ≠ 0 ∧ keyOf x.msg = key then { x with cnt := 0 } else x) := by
  simp only [rptClear, List.getElem?_map, hx, Option.map_some, rptMatches_iff]

end Repeats

/-- Settles O30, case by case of the searches. -/
theorem repeatBufferRule : Obligations.RepeatBufferRule := by
  unfold Obligations.RepeatBufferRule
  intro l m key
  refine ⟨fun j x hx hc hkey hfirst => ?_, fun hnone => ?_, rptClear_length key l, fun j x => rptClear_getElem? key,
    rptSelect_eq_none, fun j x => rptSelect_eq_some⟩
  · exact rptPut_of_pending hx (rptMatches_iff.mpr ⟨hc, hkey⟩) fun k y hk hy =>
      rptMatches_eq_false.mpr (hfirst k y hk hy)
  · have hput := rptPut_of_new (m := m) fun y hy => rptMatches_eq_false.mpr (hnone y hy)
    refine ⟨fun h0 => by rw [hput, if_pos h0], fun h0 => ?_⟩
    rw [hput, if_neg h0]
    exact ⟨fun j x hx hc hfirst => by rw [rptSlot_of_free hx hc hfirst],
      fun j x hx hfull hmin hfirst => by rw [rptSlot_of_full hx hfull hmin hfirst]⟩

/-! ### One pending repeat of a key -/

/-- A new entry keeps the pending keys apart if no other pending entry has its key. -/
theorem RptKeysOnce.set {l : List RptEntry} {j : Nat} {e : RptEntry} (h : RptKeysOnce l)
    (he : e.cnt ≠ 0 → ∀ i x, l[i]? = some x → x.cnt ≠ 0 → keyOf x.msg = keyOf e.msg → i = j) :
    RptKeysOnce (l.set j e) := by
  intro i k x y hx hy hxc hyc hkey
  rw [List.getElem?_set] at hx hy
  split at hx <;> split at hy
  next hji hjk => exact hji.symm.trans hjk
  next hji _ =>
    obtain rfl : e = x := by simpa using (Option.ite_none_right_eq_some.mp hx).2
    exact hji.symm.trans (he hxc k y hy hyc hkey.symm).symm
  next _ hjk =>
    obtain rfl : e = y := by simpa using (Option.ite_none_right_eq_some.mp hy).2
    exact (he hyc i x hx hxc hkey).trans hjk
  next => exact h i k x y hx hy hxc hyc hkey

theorem RptKeysOnce.put {l : List RptEntry} (h : RptKeysOnce l) (m : Message) : RptKeysOnce (rptPut m l) := by
  cases hf : l.findIdx? (rptMatches (keyOf m)) with
  | some j =>
    obtain ⟨x, hx, hm, hfirst⟩ := findIdx?_eq_some.mp hf
    rw [rptPut_of_pending hx hm hfirst]
    obtain ⟨hc, hkey⟩ := rptMatches_iff.mp hm
    exact h.set fun _ i y hy hyc hym => h i j y x hy hx hyc hc (hym.trans hkey.symm)
  | none =>
    have hnone := List.findIdx?_eq_none_iff.mp hf
    rw [rptPut_of_new hnone]
    split
    · exact h
    · refine h.set fun _ i y hy hyc hym => ?_
      have := hnone y (List.mem_of_getElem? hy)
      simp [rptMatches_iff.mpr ⟨hyc, hym⟩] at this

theorem RptKeysOnce.clear {l : List RptEntry} (h : RptKeysOnce l) (key : Key) : RptKeysOnce (rptClear key l) := by
  have pending {i : Nat} {x : RptEntry} (hx : (rptClear key l)[i]? = some x) (hc : x.cnt ≠ 0) : l[i]? = some x := by
    have hi : i < l.length := rptClear_length key l ▸ (List.getElem?_eq_some_iff.mp hx).1
    have hl := List.getElem?_eq_getElem hi
    rw [rptClear_getElem? key hl, Option.some.injEq] at hx
    split at hx
    · exact absurd (hx ▸ rfl) hc
    · exact hx ▸ hl
  exact fun i j x y hx hy hxc hyc => h i j x y (pending hx hxc) (pending hy hyc) hxc hyc

theorem RptKeysOnce.write {legal : Message → Prop} {l l' : List RptEntry} (h : RptWrite legal l l')
    (hl : RptKeysOnce l) : RptKeysOnce l' := by
  cases h with
  | put m => exact hl.put m
  | clear key => exact hl.clear key
  | count j e he hc => exact hl.set fun _ i x hx hxc hkey => hl i j x e hx he hxc hc hkey

end Sys2Proof.Machine
end

section
/-! SUPPORT. The locomotive table and the organizer's commands (42_organizer R204 to R210, R216, R217): what each leaves
in the table, the queues, the repeat buffer and the response. -/

namespace Sys2Proof.Machine

/-! ## The locomotive table (42_organizer R210) -/

theorem locoAt_of_lt {l : List LocoEntry} {i : Nat} (h : i < l.length) : locoAt l i = l[i] := by
  simp [locoAt, List.getD, h]

theorem exists_maxIdx {l : List Nat} (h : l ≠ []) : ∃ i, maxIdx l = some i := by
  obtain ⟨x, hx⟩ := Option.isSome_iff_exists.mp (List.isSome_max?_of_ne_nil h)
  obtain ⟨hmem, hmax⟩ := List.max?_eq_some_iff.mp hx
  refine Option.ne_none_iff_exists'.mp fun hnone => ?_
  have hx := List.findIdx?_eq_none_iff.mp hnone x hmem
  rw [List.all_eq_true.mpr fun y hy => decide_eq_true (hmax y hy)] at hx
  cases hx

theorem stalestAt_iff {l : List LocoEntry} {i : Nat} :
    StalestAt l i ↔ maxIdx (l.map fun e => e.refresh.toNat) = some i := by
  rw [maxIdx_eq_some]
  constructor
  · rintro ⟨hi, hmax, hfirst⟩
    refine ⟨l[i].refresh.toNat, by simp [hi], fun y hy => ?_, fun j y hj hy => ?_⟩
    · obtain ⟨e, he, rfl⟩ := List.mem_map.mp hy
      obtain ⟨j, hj, rfl⟩ := List.getElem_of_mem he
      simpa only [locoAt_of_lt, hi, hj] using hmax j hj
    · have hjl : j < l.length := hj.trans hi
      obtain rfl : l[j].refresh.toNat = y := by simpa [hjl] using hy
      simpa only [locoAt_of_lt, hi, hjl] using (hfirst j hj).ne
  · rintro ⟨x, hx, hmax, hfirst⟩
    obtain ⟨hi, rfl⟩ : ∃ hi : i < l.length, l[i].refresh.toNat = x := by
      obtain ⟨e, he, rfl⟩ : ∃ e, l[i]? = some e ∧ e.refresh.toNat = x := by simpa using hx
      obtain ⟨hi, rfl⟩ := List.getElem?_eq_some_iff.mp he
      exact ⟨hi, rfl⟩
    have le (j : Nat) (hj : j < l.length) : (locoAt l j).refresh.toNat ≤ (locoAt l i).refresh.toNat := by
      rw [locoAt_of_lt hi, locoAt_of_lt hj]
      exact hmax _ (List.mem_map_of_mem (List.getElem_mem hj))
    refine ⟨hi, le, fun j hj => (le j (hj.trans hi)).lt_of_ne ?_⟩
    have hjl : j < l.length := hj.trans hi
    rw [locoAt_of_lt hi, locoAt_of_lt hjl]
    exact hfirst j _ hj (by simp [hjl])

theorem locoVictim_of_roomAt {l : List LocoEntry} {i : Nat} (h : RoomAt l i) : locoVictim l = i := by
  unfold locoVictim
  rcases h with hi | ⟨habs, hi⟩
  · simp only [locoFind_eq_some.mpr hi]
  · simp only [locoFind_eq_none.mpr habs, stalestAt_iff.mp hi, Option.getD_some]

theorem holdsAt_or_absent (l : List LocoEntry) (a : LocoAddr) : (∃ i, HoldsAt l a i) ∨ Absent l a := by
  cases hf : locoFind l a with
  | some i => exact .inl ⟨i, locoFind_eq_some.mp hf⟩
  | none => exact .inr (locoFind_eq_none.mp hf)

theorem exists_roomAt {l : List LocoEntry} (h : l ≠ []) : ∃ i, RoomAt l i := by
  rcases holdsAt_or_absent l 0 with ⟨i, hi⟩ | habs
  · exact ⟨i, .inl hi⟩
  · obtain ⟨i, hi⟩ := exists_maxIdx (l := l.map fun e => e.refresh.toNat) (by simpa using h)
    exact ⟨i, .inr ⟨habs, stalestAt_iff.mpr hi⟩⟩

theorem RoomAt.lt_length {l : List LocoEntry} {i : Nat} (h : RoomAt l i) : i < l.length :=
  h.elim (fun hi => hi.1) fun hi => hi.2.1

theorem locoGet_of_holdsAt {l : List LocoEntry} {a : LocoAddr} {i : Nat} (p : Params) (h : HoldsAt l a i) :
    locoGet p a l = (i, false, l) := by
  simp only [locoGet, locoFind_eq_some.mpr h]

theorem locoGet_of_absent {l : List LocoEntry} {a : LocoAddr} {i : Nat} (p : Params) (h : Absent l a)
    (hi : RoomAt l i) : locoGet p a l = (i, true, l.set i (newLoco p a)) := by
  simp only [locoGet, locoFind_eq_none.mpr h, locoVictim_of_roomAt hi]

/-- Settles O22: the address is found, or else there is room for it. -/
theorem locoGetRule : Obligations.LocoGetRule := by
  unfold Obligations.LocoGetRule
  refine ⟨fun _ a l hl => ⟨?_, fun _ => locoGet_of_holdsAt _, fun _ => locoGet_of_absent _⟩, fun p a => ?_⟩
  · exact (holdsAt_or_absent l a).imp_right fun habs => ⟨habs, exists_roomAt hl⟩
  · exact ⟨congrArg formatOfSteps, congrArg formatOfSteps, congrArg formatOfSteps, congrArg formatOfSteps⟩

/-- Settles O25, by the search for the address. -/
theorem locoForgetRule : Obligations.LocoForgetRule := by
  unfold Obligations.LocoForgetRule
  refine fun s a => ⟨fun i hi => ?_, fun habs => ?_⟩
  · simp only [exec, execLocoForget, locoFind_eq_some.mpr hi]
    rfl
  · simp only [exec, execLocoForget, locoFind_eq_none.mpr habs]
    rfl

/-! ## Commands that only enqueue (42_organizer R207 to R209) -/

/-- The response of an enqueue is its flags (10_state R38, 42_organizer R215). -/
theorem respondFlags_eq (f : OrgFlags) (s : State) :
    respondFlags f s = { s with resp := flagsResponse f.full f.hp f.new } := by
  obtain ⟨new, hp, full⟩ := f
  cases new <;> cases hp <;> cases full <;> rfl

theorem exec_of_enqueueCommand {i : Instr} {m : Message} {s : State}
    (h : enqueueCommand s.params i = some m) : exec i s = enqueueOnly m s := by
  cases i <;> cases h <;> rfl

/-- Settles O27: each of the commands is the enqueue of its message. -/
theorem enqueueCommandsRule : Obligations.EnqueueCommandsRule := by
  unfold Obligations.EnqueueCommandsRule
  intro s i m h
  rw [exec_of_enqueueCommand h]
  refine ⟨fun hmode => ?_, fun hmode => ?_⟩
  · simp only [enqueueOnly, enqueue_prog hmode, respondFlags_eq]
  · simp only [enqueueOnly, enqueue_run hmode, respondFlags_eq]

/-- Settles O26: the stop is one push, to the queue of the run-mode. -/
theorem broadcastStopRule : Obligations.BroadcastStopRule := by
  unfold Obligations.BroadcastStopRule
  refine fun s e => ⟨fun hmode => ?_, fun hmode => ?_⟩
  · simp only [exec, execBcastStop, hmode, if_true, pushSmq_eq, respondFlags_eq]
  · simp only [exec, execBcastStop, hmode, pushHpq_eq, respondFlags_eq]
    rfl

/-! ## Locomotive commands (42_organizer R204, R205) -/

/-- A locomotive command has left the table `l`, announced the entry by `m`, with a copy to `HPQ` where `hp` asks for it,
and answered its flags; nothing else has changed. -/
def Announced (m : Message) (l : List LocoEntry) (hp isNew full : Bool) (s t : State) : Prop :=
  t = { s with loco := t.loco, smq := t.smq, hpq := t.hpq, lpq := t.lpq, rpt := t.rpt, resp := t.resp } ∧
  t.loco = l ∧ Enqueued m hp full s t ∧ t.resp = flagsResponse full hp isNew

/-- In a PROG mode the message goes to `SMQ`, and no copy is asked for. -/
theorem announced_prog {m : Message} {l : List LocoEntry} (isNew : Bool) {s : State} (h : isProg s.runMode = true) :
    Announced m l false isNew s.smq.full s { s with
      loco := l, smq := (s.smq.push m).getD s.smq, resp := flagsResponse s.smq.full false isNew } :=
  ⟨rfl, rfl, ⟨fun _ => ⟨rfl, rfl, rfl, rfl, rfl⟩, fun hrun => by simp [h] at hrun⟩, rfl⟩

/-- In a RUN mode the message is inserted into `LPQ`, after its pending repeat has been cleared. -/
theorem announced_run {m : Message} {l : List LocoEntry} {hp isNew full : Bool} {s : State}
    (h : isProg s.runMode = false) (hfull : full = ((lpInsertRing s.lpq m).isNone || (hp && s.hpq.full))) :
    Announced m l hp isNew full s { s with
      loco := l, lpq := (lpInsertRing s.lpq m).getD s.lpq, rpt := rptClear (keyOf m) s.rpt
      hpq := if hp then (s.hpq.push m).getD s.hpq else s.hpq, resp := flagsResponse full hp isNew } :=
  ⟨rfl, rfl, ⟨fun hprog => by simp [h] at hprog, fun _ => ⟨hfull, rfl, rfl, rfl, rfl⟩⟩, rfl⟩

/-- The entry that `loco_get(a)` answers (42_organizer R210). -/
def gotEntry (a : LocoAddr) (s : State) : LocoEntry :=
  locoAt (locoGet s.params a s.loco).2.2 (locoGet s.params a s.loco).1

/-- The entry that `loco_get(a)` answers is new. -/
def gotNew (a : LocoAddr) (s : State) : Bool := (locoGet s.params a s.loco).2.1

/-- The table after `loco_get(a)`, with the entry it answers replaced by `e`. -/
def putEntry (a : LocoAddr) (e : LocoEntry) (s : State) : List LocoEntry :=
  (locoGet s.params a s.loco).2.2.set (locoGet s.params a s.loco).1 e

/-- The entry after `LOCO_SPEED` (42_organizer R204). -/
def LocoEntry.withSpeed (v : Byte) (e : LocoEntry) : LocoEntry := { e with speed := v, active := true, refresh := 0 }

/-- The entry after a function-group command (42_organizer R205). -/
def LocoEntry.withFuncs (funcs : BitVec 29) (e : LocoEntry) : LocoEntry :=
  { e with funcs := funcs, active := true, refresh := 0 }

/-- `LOCO_SPEED` asks for a copy to `HPQ` (42_organizer R204). -/
def speedUrgent (a : LocoAddr) (v : Byte) (s : State) : Bool :=
  !isProg s.runMode && !gotNew a s && slowed (gotEntry a s).speed v

/-- The speed message of an entry. -/
def entrySpeedMsg (a : LocoAddr) (v : Byte) (e : LocoEntry) (s : State) : Message :=
  speedMsg s.params a v e.format (e.funcs.getLsbD 0)

theorem execLocoSpeed_announces (a : LocoAddr) (v : Byte) (s : State) :
    ∃ t full, execLocoSpeed a v s = .next t ∧
      Announced (entrySpeedMsg a v (gotEntry a s) s) (putEntry a ((gotEntry a s).withSpeed v) s) (speedUrgent a v s)
        (gotNew a s) full s t := by
  cases hmode : isProg s.runMode with
  | true =>
    have hurgent : speedUrgent a v s = false := by simp [speedUrgent, hmode]
    rw [hurgent]
    refine ⟨_, _, ?_, announced_prog (gotNew a s) hmode⟩
    simp only [execLocoSpeed, clearRepeats, hmode, if_true, enqueue_prog, respondFlags_eq]
    rfl
  | false =>
    refine ⟨_, _, ?_, announced_run hmode rfl⟩
    have hurgent : speedUrgent a v s = (!gotNew a s && slowed (gotEntry a s).speed v) := by simp [speedUrgent, hmode]
    rw [hurgent]
    simp only [execLocoSpeed, clearRepeats, hmode, enqueue_run, respondFlags_eq, pushHpq_eq, Bool.false_eq_true,
      if_false, Bool.not_false, Bool.true_and]
    split
    next h =>
      have h : (!gotNew a s && slowed (gotEntry a s).speed v) = true := h
      rw [h]
      rfl
    next h =>
      have h : (!gotNew a s && slowed (gotEntry a s).speed v) = false := Bool.eq_false_iff.mpr h
      rw [h]
      simp only [Bool.false_and, Bool.or_false]
      rfl

theorem setGroup_announces (g : Nat) (a : LocoAddr) (d : Byte) (s : State) :
    ∃ t full, setGroup g a d s = .next t ∧
      Announced (groupMsg s.params a g (setGroupBits (gotEntry a s).funcs g d))
        (putEntry a ((gotEntry a s).withFuncs (setGroupBits (gotEntry a s).funcs g d)) s) false (gotNew a s)
        full s t := by
  cases hmode : isProg s.runMode with
  | true =>
    refine ⟨_, _, ?_, announced_prog (gotNew a s) hmode⟩
    simp only [setGroup, clearRepeats, hmode, if_true, enqueue_prog, respondFlags_eq]
    rfl
  | false =>
    refine ⟨_, _, ?_, announced_run hmode (Bool.or_false _).symm⟩
    simp only [setGroup, clearRepeats, hmode, Bool.false_eq_true, if_false, enqueue_run, respondFlags_eq]
    rfl

/-- What `loco_get` answers, in the words of the rule. -/
theorem GotEntry.answers {s : State} {a : LocoAddr} {i : Nat} {e : LocoEntry} {isNew : Bool}
    (h : GotEntry s a i e isNew) :
    gotEntry a s = e ∧ gotNew a s = isNew ∧ ∀ e', putEntry a e' s = s.loco.set i e' := by
  rcases h with ⟨hi, rfl, rfl⟩ | ⟨habs, hi, rfl, rfl⟩
  · simp only [gotEntry, gotNew, putEntry, locoGet_of_holdsAt s.params hi]
    exact ⟨trivial, trivial, fun _ => trivial⟩
  · simp only [gotEntry, gotNew, putEntry, locoGet_of_absent s.params habs hi, List.set_set]
    exact ⟨(locoAt_set hi.lt_length).trans (if_pos rfl), trivial, fun _ => trivial⟩

theorem slowed_iff {old new : Byte} :
    slowed old new = true ↔ new.getLsbD 7 ≠ old.getLsbD 7 ∨ new.toNat % 128 < old.toNat % 128 := by
  simp only [slowed, Bool.or_eq_true, bne_iff_ne, decide_eq_true_eq, speedDir, speedMag_eq, ne_comm]

theorem speedUrgent_iff {a : LocoAddr} {v : Byte} {s : State} :
    speedUrgent a v s = true ↔ isProg s.runMode = false ∧ gotNew a s = false ∧
      (v.getLsbD 7 ≠ (gotEntry a s).speed.getLsbD 7 ∨ v.toNat % 128 < (gotEntry a s).speed.toNat % 128) := by
  simp only [speedUrgent, Bool.and_eq_true, Bool.not_eq_true', slowed_iff, and_assoc]

/-- Settles O23: the command announces the entry that `loco_get` answers. -/
theorem locoSpeedRule : Obligations.LocoSpeedRule := by
  unfold Obligations.LocoSpeedRule
  intro s a v i e isNew hgot
  obtain ⟨rfl, rfl, hput⟩ := hgot.answers
  obtain ⟨t, full, ht, hframe, hloco, henq, hresp⟩ := execLocoSpeed_announces a v s
  exact ⟨t, _, full, ht, hframe, hloco.trans (hput _), speedUrgent_iff, henq, hresp⟩

/-- The bits of `funcs` with group `g` replaced (42_organizer R205). -/
theorem getLsbD_setGroupBits (funcs : BitVec 29) (g : Nat) (d : Byte) {k : Nat} (hk : k < 29) :
    (setGroupBits funcs g d).getLsbD k =
      if groupLow g ≤ k ∧ k < groupLow g + groupWidth g then d.getLsbD (k - groupLow g) else funcs.getLsbD k := by
  have hmask : (BitVec.ofNat 29 (2 ^ groupWidth g - 1)).getLsbD (k - groupLow g) =
      decide (k - groupLow g < groupWidth g) := by
    rw [BitVec.getLsbD_ofNat, Nat.testBit_two_pow_sub_one, decide_eq_true (by omega), Bool.true_and]
  simp only [setGroupBits, BitVec.getLsbD_or, BitVec.getLsbD_and, BitVec.getLsbD_not, BitVec.getLsbD_shiftLeft,
    BitVec.getLsbD_setWidth, hmask, decide_eq_true hk, decide_eq_true (show k - groupLow g < 29 by omega),
    Bool.true_and]
  by_cases hlow : groupLow g ≤ k
  · have hin : k < groupLow g + groupWidth g ↔ k - groupLow g < groupWidth g := by omega
    by_cases hw : k - groupLow g < groupWidth g <;> simp [hlow, hin, hw, Nat.not_lt.mpr hlow]
  · simp [hlow, Nat.not_le.mp hlow]

/-- The bounds of the groups' bits, as the rule lists them (42_organizer R205). -/
theorem groupLow_groupWidth_of_mem {g lo hi : Nat}
    (h : (g, lo, hi) ∈ [(1, 0, 4), (2, 5, 8), (3, 9, 12), (4, 13, 20), (5, 21, 28)]) :
    groupLow g = lo ∧ lo + groupWidth g = hi + 1 := by
  simp only [List.mem_cons, Prod.mk.injEq, List.not_mem_nil, or_false] at h
  rcases h with ⟨rfl, rfl, rfl⟩ | ⟨rfl, rfl, rfl⟩ | ⟨rfl, rfl, rfl⟩ | ⟨rfl, rfl, rfl⟩ | ⟨rfl, rfl, rfl⟩ <;> decide

theorem exec_of_groupCommand {c : Instr} {a : LocoAddr} {g : Nat} {d : Byte} (h : groupCommand c = some (a, g, d))
    (s : State) : exec c s = setGroup g a d s := by
  cases c <;> cases h <;> rfl

/-- Settles O24: the command announces the entry with the group's bits replaced. -/
theorem groupCommandRule : Obligations.GroupCommandRule := by
  unfold Obligations.GroupCommandRule
  intro s c a g d i e isNew lo hi funcs hc hgot hmem hbits
  obtain ⟨rfl, rfl, hput⟩ := hgot.answers
  obtain ⟨hlo, hhi⟩ := groupLow_groupWidth_of_mem hmem
  obtain rfl : setGroupBits (gotEntry a s).funcs g d = funcs := by
    refine BitVec.eq_of_getLsbD_eq fun k hk => ?_
    simp only [getLsbD_setGroupBits _ g d hk, hbits k hk, hlo, hhi, Nat.lt_succ_iff]
  obtain ⟨t, full, ht, hframe, hloco, henq, hresp⟩ := setGroup_announces g a d s
  have hhpq : t.hpq = s.hpq := by
    cases hmode : isProg s.runMode with
    | true => exact (henq.1 hmode).2.2.2.1
    | false => exact (henq.2 hmode).2.2.2.1
  rw [hhpq] at hframe
  exact ⟨t, full, (exec_of_groupCommand hc s).trans ht, hframe, hloco.trans (hput _), henq, hresp⟩

end Sys2Proof.Machine
end

section
/-! SUPPORT. The organizer's queries (42_organizer R216, R217) and the frame of every command (R203). -/

namespace Sys2Proof.Machine

/-! ## Queries (42_organizer R216, R217) -/

/-- Settles O42, by the run-mode and the fullness of its queues. -/
theorem queryReadyRule : Obligations.QueryReadyRule := by
  unfold Obligations.QueryReadyRule
  intro s
  have hresp (b : Bool) : response stOk ((BitVec.ofBool b).setWidth 16) = if b then 0x400001 else 0x400000 := by
    cases b <;> rfl
  simp only [exec, execQueryReady, respond, ready, hresp]
  cases hmode : isProg s.runMode with
  | true => cases hsmq : s.smq.full <;> rfl
  | false => cases hlpq : s.lpq.full <;> cases hhpq : s.hpq.full <;> rfl

theorem isActive_iff {e : LocoEntry} : isActive e = true ↔ e.addr ≠ 0 ∧ e.active = true := by
  simp only [isActive, Bool.and_eq_true, bne_iff_ne]

theorem mem_activeAddrs {l : List LocoEntry} {x : Nat} : x ∈ activeAddrs l ↔ ActiveAddr l x := by
  simp only [activeAddrs, List.mem_map, List.mem_filter, isActive_iff, ActiveAddr]
  exact exists_congr fun e => ⟨fun ⟨⟨h, h0, ha⟩, hx⟩ => ⟨h, hx, h0, ha⟩, fun ⟨h, hx, h0, ha⟩ => ⟨⟨h, h0, ha⟩, hx⟩⟩

section Extremum

variable {l : List Nat} {a x : Nat}

theorem nextAfter_of_above (hx : x ∈ l) (hax : a < x) (hmin : ∀ y ∈ l, a < y → x ≤ y) : nextAfter a l = some x := by
  have hm : (l.filter fun y => a < y).min? = some x :=
    List.min?_eq_some_iff.mpr ⟨by simp [hx, hax], by simpa using hmin⟩
  simp only [nextAfter, hm]

theorem nextAfter_of_wrap (hx : x ∈ l) (hmin : ∀ y ∈ l, y ≤ a ∧ x ≤ y) : nextAfter a l = some x := by
  have hnone : (l.filter fun y => a < y) = [] := by simpa using fun y hy => (hmin y hy).1
  have hm : l.min? = some x := List.min?_eq_some_iff.mpr ⟨hx, fun y hy => (hmin y hy).2⟩
  simp only [nextAfter, hnone, List.min?_nil, hm]

theorem prevBefore_of_below (hx : x ∈ l) (hxa : x < a) (hmax : ∀ y ∈ l, y < a → y ≤ x) : prevBefore a l = some x := by
  have hm : (l.filter fun y => y < a).max? = some x :=
    List.max?_eq_some_iff.mpr ⟨by simp [hx, hxa], by simpa using hmax⟩
  simp only [prevBefore, hm]

theorem prevBefore_of_wrap (hx : x ∈ l) (hmax : ∀ y ∈ l, a ≤ y ∧ y ≤ x) : prevBefore a l = some x := by
  have hnone : (l.filter fun y => y < a) = [] := by simpa using fun y hy => (hmax y hy).1
  have hm : l.max? = some x := List.max?_eq_some_iff.mpr ⟨hx, fun y hy => (hmax y hy).2⟩
  simp only [prevBefore, hnone, List.max?_nil, hm]

end Extremum

theorem findActive_eq_some {l : List LocoEntry} {a : LocoAddr} {i : Nat} {e : LocoEntry} (he : l[i]? = some e)
    (haddr : e.addr = a) (ha : a ≠ 0) (hactive : e.active = true)
    (hfirst : ∀ j y, j < i → l[j]? = some y → y.addr ≠ a ∨ y.active = false) :
    (l.findIdx? fun e => isActive e && e.addr == a) = some i := by
  refine findIdx?_eq_some.mpr ⟨e, he, ?_, fun j y hj hy => ?_⟩
  · rw [isActive_iff.mpr ⟨haddr ▸ ha, hactive⟩, haddr, beq_self_eq_true, Bool.and_self]
  · rcases hfirst j y hj hy with h | h <;> simp [isActive, h]

theorem findActive_eq_none {l : List LocoEntry} {a : LocoAddr} (h : ¬ ActiveAddr l a.toNat) :
    (l.findIdx? fun e => isActive e && e.addr == a) = none := by
  refine List.findIdx?_eq_none_iff.mpr fun e he => Bool.eq_false_iff.mpr fun hit => h ?_
  obtain ⟨hactive, haddr⟩ := Bool.and_eq_true_iff.mp hit
  obtain ⟨h0, ha⟩ := isActive_iff.mp hactive
  exact ⟨e, he, congrArg BitVec.toNat (beq_iff_eq.mp haddr), h0, ha⟩

/-- Settles O43: the active addresses are the members of the list that the searches go through. -/
theorem activeQueriesRule : Obligations.ActiveQueriesRule := by
  unfold Obligations.ActiveQueriesRule
  simp only [← mem_activeAddrs]
  intro s a
  refine ⟨fun i e he haddr ha hactive hfirst => ?_, fun h => ?_, fun x hx =>
    ⟨fun hax hmin => ?_, fun hmin => ?_, fun hxa hmax => ?_, fun hmax => ?_⟩, fun hnone => ?_⟩
  · simp only [exec, execFindActive, findActive_eq_some he haddr ha hactive hfirst]
    rfl
  · simp only [exec, execFindActive, findActive_eq_none (mem_activeAddrs.not.mp h)]
    rfl
  · simp only [exec, execNextActive, nextAfter_of_above hx hax hmin]
    rfl
  · simp only [exec, execNextActive, nextAfter_of_wrap hx hmin]
    rfl
  · simp only [exec, execPrevActive, prevBefore_of_below hx hxa hmax]
    rfl
  · simp only [exec, execPrevActive, prevBefore_of_wrap hx hmax]
    rfl
  · simp only [exec, execNextActive, execPrevActive, List.eq_nil_iff_forall_not_mem.mpr hnone]
    exact ⟨rfl, rfl⟩

/-! ## The frame of every command (42_organizer R203) -/

/-- Command `i` has changed nothing beyond what its rule names. -/
structure WithinRule (i : Instr) (s t : State) : Prop where
  rest : t = { s with
    loco := t.loco, smq := t.smq, hpq := t.hpq, lpq := t.lpq, rpt := t.rpt, prog := t.prog, resp := t.resp }
  prog : taskOf i = none → i ≠ .progTerminate → t.prog = s.prog
  table : groupCommand i = none → i.op ≠ .locoSpeed → t.rpt = s.rpt ∧ (i.op ≠ .locoForget → t.loco = s.loco)
  queues : groupCommand i = none → enqueueCommand s.params i = none → i.op ≠ .locoSpeed → i.op ≠ .bcastStop →
    t.smq = s.smq ∧ t.hpq = s.hpq ∧ t.lpq = s.lpq
  hpq : i.op ≠ .locoSpeed → i.op ≠ .bcastStop → t.hpq = s.hpq
  progMode : isProg s.runMode = true → t.hpq = s.hpq ∧ t.lpq = s.lpq ∧ t.rpt = s.rpt
  runMode : isProg s.runMode = false → t.smq = s.smq

section Frame

variable {i : Instr} {s t : State}

/-- A command may always write the response. -/
theorem withinRule_respond (i : Instr) (s : State) (r : Response) : WithinRule i s { s with resp := r } := by
  constructor <;> simp

theorem withinRule_forget (a : LocoAddr) (s : State) (l : List LocoEntry) (r : Response) :
    WithinRule (.locoForget a) s { s with loco := l, resp := r } := by
  constructor <;> simp [Instr.op]

/-- A command of the programmer may write the programmer's registers. -/
theorem withinRule_programmer (h : taskOf i = none → i = .progTerminate) (s : State) (g : Programmer) (r : Response) :
    WithinRule i s { s with prog := g, resp := r } :=
  ⟨rfl, fun hi hne => absurd (h hi) hne, fun _ _ => ⟨rfl, fun _ => rfl⟩, fun _ _ _ _ => ⟨rfl, rfl, rfl⟩, fun _ _ => rfl,
    fun _ => ⟨rfl, rfl, rfl⟩, fun _ => rfl⟩

theorem withinRule_start {op : TaskOp} {args : TaskArgs} (hi : taskOf i = some op) (h : start op args s = .next t) :
    WithinRule i s t := by
  unfold start at h
  split at h <;> cases h
  · exact withinRule_respond i s _
  · exact withinRule_programmer (by simp [hi]) s _ _

theorem withinRule_terminate (h : execProgTerminate s = .next t) : WithinRule .progTerminate s t := by
  unfold execProgTerminate at h
  split at h <;> cases h <;> exact withinRule_programmer (fun _ => rfl) s _ _

theorem withinRule_enqueueOnly {m : Message} (hi : enqueueCommand s.params i = some m)
    (h : enqueueOnly m s = .next t) : WithinRule i s t := by
  cases hmode : isProg s.runMode with
  | true =>
    simp only [enqueueOnly, enqueue_prog hmode, respondFlags_eq] at h
    cases h
    constructor <;> simp [hi, hmode]
  | false =>
    simp only [enqueueOnly, enqueue_run hmode, respondFlags_eq] at h
    cases h
    constructor <;> simp [hi, hmode]

theorem withinRule_bcastStop {e : Bool} (h : execBcastStop e s = .next t) : WithinRule (.bcastStop e) s t := by
  cases hmode : isProg s.runMode with
  | true =>
    simp only [execBcastStop, hmode, if_true, pushSmq_eq, respondFlags_eq] at h
    cases h
    constructor <;> simp [hmode, Instr.op]
  | false =>
    simp only [execBcastStop, hmode, Bool.false_eq_true, if_false, pushHpq_eq, respondFlags_eq] at h
    cases h
    constructor <;> simp [hmode, Instr.op]

/-- The announcement of an entry is within the rule of a locomotive command. -/
theorem Announced.withinRule {m : Message} {l : List LocoEntry} {hp isNew full : Bool}
    (h : Announced m l hp isNew full s t) (hi : groupCommand i ≠ none ∨ i.op = .locoSpeed)
    (hhp : i.op ≠ .locoSpeed → hp = false) : WithinRule i s t := by
  obtain ⟨hframe, -, ⟨hprog, hrun⟩, -⟩ := h
  have noLoco {P : Prop} (hg : groupCommand i = none) (hop : i.op ≠ .locoSpeed) : P :=
    hi.elim (absurd hg) fun h => absurd h hop
  constructor
  · rw [hframe]
  · rw [hframe]; exact fun _ _ => rfl
  · exact noLoco
  · exact fun hg _ hop => noLoco hg hop
  · intro hop _
    cases hmode : isProg s.runMode with
    | true => exact (hprog hmode).2.2.2.1
    | false => simpa [hhp hop] using (hrun hmode).2.2.2.1
  · intro hmode
    obtain ⟨-, -, hlpq, hhpq, hrpt⟩ := hprog hmode
    exact ⟨hhpq, hlpq, hrpt⟩
  · exact fun hmode => (hrun hmode).2.1

theorem withinRule_locoSpeed {a : LocoAddr} {v : Byte} (h : execLocoSpeed a v s = .next t) :
    WithinRule (.locoSpeed a v) s t := by
  obtain ⟨t', full, ht, hann⟩ := execLocoSpeed_announces a v s
  cases ht.symm.trans h
  exact hann.withinRule (.inr rfl) fun hop => absurd rfl hop

theorem withinRule_setGroup {a : LocoAddr} {g : Nat} {d : Byte} (hi : groupCommand i = some (a, g, d))
    (h : setGroup g a d s = .next t) : WithinRule i s t := by
  obtain ⟨t', full, ht, hann⟩ := setGroup_announces g a d s
  cases ht.symm.trans h
  exact hann.withinRule (.inl (by simp [hi])) fun _ => rfl

theorem withinRule_locoForget {a : LocoAddr} (h : execLocoForget a s = .next t) : WithinRule (.locoForget a) s t := by
  unfold execLocoForget at h
  split at h <;> cases h
  · exact withinRule_forget a s _ _
  · exact withinRule_respond _ s _

theorem withinRule_respondFound (i : Instr) (v : Option Nat) (s : State) : WithinRule i s (respondFound v s) := by
  cases v <;> exact withinRule_respond i s _

theorem withinRule_exec (h : exec i s = .next t) : WithinRule i s t := by
  cases i with
  | locoSpeed a v => exact withinRule_locoSpeed h
  | locoFgrp1 | locoFgrp2 | locoFgrp3 | locoFgrp4 | locoFgrp5 => exact withinRule_setGroup rfl h
  | locoForget a => exact withinRule_locoForget h
  | bcastStop e => exact withinRule_bcastStop h
  | accBasic | accExt | pomLocoWrbyte | pomLocoWrbit | pomLocoVerify | pomAccWrbyte | fastClock =>
    exact withinRule_enqueueOnly rfl h
  | findActive | nextActive | prevActive => cases h; exact withinRule_respondFound _ _ s
  | progRegRead | progRegWrite | progPagedRead | progPagedWrite | progDirectRead | progDirectWrite
  | progDirectBitWrite | progDirectBitVerify | progLongaddrRead | progLongaddrWrite | progQueryBitcap =>
    exact withinRule_start rfl h
  | progTerminate => exact withinRule_terminate h
  | queryReady | progStatus | progValue => cases h; exact withinRule_respond _ s _

end Frame

/-- Settles O21: every command answers, and each family keeps within its rule. -/
theorem commandFrame : Obligations.CommandFrame := by
  unfold Obligations.CommandFrame
  intro i s
  obtain ⟨t, ht⟩ := exec_answers i s
  obtain ⟨hrest, hprog, htable, hqueues, hhpq, hprogMode, hrunMode⟩ := withinRule_exec ht
  exact ⟨t, ht, hrest, hprog, htable, hqueues, hhpq, hprogMode, hrunMode⟩

end Sys2Proof.Machine
end

section
/-! SUPPORT. What a `CORE` step does to `LPQ` and `RPT`: the deduplication of both survives every step (42_organizer R213,
R214), and a `CORE` step in its parts (R200). -/

namespace Sys2Proof.Machine

/-! ## One waiting entry of a key (42_organizer R213) -/

section Waiting

variable {n : Nat} {s t : State}

theorem Announced.dedupQueue {m : Message} {l : List LocoEntry} {hp isNew full : Bool}
    (h : Announced m l hp isNew full s t) (hs : DedupQueue n s.lpq) : DedupQueue n t.lpq := by
  obtain ⟨-, -, ⟨hprog, hrun⟩, -⟩ := h
  cases hmode : isProg s.runMode with
  | true =>
    obtain ⟨-, -, hlpq, -⟩ := hprog hmode
    exact hlpq ▸ hs
  | false =>
    obtain ⟨-, -, hlpq, -⟩ := hrun hmode
    exact hlpq ▸ hs.lpInsert m

theorem dedupQueue_enqueueOnly {m : Message} (h : enqueueOnly m s = .next t) (hs : DedupQueue n s.lpq) :
    DedupQueue n t.lpq := by
  cases hmode : isProg s.runMode with
  | true =>
    simp only [enqueueOnly, enqueue_prog hmode] at h
    cases h
    exact hs
  | false =>
    simp only [enqueueOnly, enqueue_run hmode] at h
    cases h
    exact hs.lpInsert m

/-- A command touches `LPQ` only by the deduplicating insert. -/
theorem dedupQueue_exec {i : Instr} (h : exec i s = .next t) (hs : DedupQueue n s.lpq) : DedupQueue n t.lpq := by
  have hrule := withinRule_exec h
  have stays (hlpq : t.lpq = s.lpq) : DedupQueue n t.lpq := hlpq ▸ hs
  cases i with
  | locoSpeed a v =>
    obtain ⟨t', full, ht, hann⟩ := execLocoSpeed_announces a v s
    cases ht.symm.trans h
    exact hann.dedupQueue hs
  | locoFgrp1 a d | locoFgrp2 a d | locoFgrp3 a d | locoFgrp4 a d | locoFgrp5 a d =>
    obtain ⟨t', full, ht, hann⟩ := setGroup_announces _ a _ s
    cases ht.symm.trans h
    exact hann.dedupQueue hs
  | accBasic | accExt | pomLocoWrbyte | pomLocoWrbit | pomLocoVerify | pomAccWrbyte | fastClock =>
    exact dedupQueue_enqueueOnly h hs
  | bcastStop e =>
    cases hmode : isProg s.runMode with
    | true => exact stays (hrule.progMode hmode).2.1
    | false =>
      cases h.symm.trans ((broadcastStopRule s e).2 hmode)
      exact hs
  | locoForget | queryReady | findActive | nextActive | prevActive | progRegRead | progRegWrite | progPagedRead
  | progPagedWrite | progDirectRead | progDirectWrite | progDirectBitWrite | progDirectBitVerify | progLongaddrRead
  | progLongaddrWrite | progQueryBitcap | progTerminate | progStatus | progValue =>
    exact stays (hrule.queues rfl rfl nofun nofun).2.2

theorem dedupQueue_runCommand {w : Option CmdWord} (h : runCommand w s = .next t) (hs : DedupQueue n s.lpq) :
    DedupQueue n t.lpq := by
  unfold runCommand at h
  split at h
  · cases h; exact hs
  · split at h
    · cases h; exact hs
    · exact dedupQueue_exec h hs

theorem layerStep_lpq (h : layerStep s = .next t) : t.lpq = s.lpq := by
  cases hi : s.prog.innerState <;> simp only [layerStep, hi] at h
  case pre | cmd | wait | post =>
    cases h
    rw [innerStep_frame]
  case idle | done => rw [(progAnswer_upperLayers s t h).only]

theorem exitStep_lpq (s : State) : (exitStep s).lpq = s.lpq := by
  unfold exitStep
  split
  · split <;> rfl
  · rfl

theorem enterStep_lpq (s : State) : (enterStep s).lpq = s.lpq := by
  simp only [enterStep, pushSmq_eq]
  split <;> rfl

theorem progAct_lpq (h : progAct s = .next t) : t.lpq = s.lpq := by
  cases hs : s.prog.seqState <;> simp only [progAct, hs] at h
  case idle => cases h; rfl
  case enter => cases h; exact enterStep_lpq s
  case step => exact layerStep_lpq h
  case exit => cases h; exact exitStep_lpq s

/-- The programmer sends through `SMQ` alone. -/
theorem progStep_lpq (h : progStep s = .next t) : t.lpq = s.lpq := by
  have hcheck : (modeCheck s).lpq = s.lpq := by rw [onlyProg_modeCheck s]
  cases hs : s.prog.seqState <;> simp only [progStep, hs] at h
  case idle => cases h; rfl
  case enter | step => exact (progAct_lpq h).trans hcheck
  case exit => exact progAct_lpq h

/-- The outcome, where it is a next state, has `LPQ` as it was, or without its head. -/
def KeepsOrPopsLow (s : State) (o : Result) : Prop :=
  ∀ t, o = .next t → t.lpq = s.lpq ∨ (s.lpq.empty = false ∧ t.lpq = s.lpq.pop)

theorem keepsOrPopsLow_dispatch {s1 : State} (m : Message) (c : Byte) (src : MbxSrc) (h : s1.lpq = s.lpq) :
    KeepsOrPopsLow s (dispatch m c src s1) := by
  intro t ht
  obtain ⟨-, -, rfl⟩ := dispatch_eq_next.mp ht
  exact .inl h

theorem keepsOrPopsLow_dispatchRefresh (s : State) : KeepsOrPopsLow s (dispatchRefresh s) := by
  have hlpq : (refreshNext s).2.2.lpq = s.lpq := by rw [refreshNext_frame]
  unfold dispatchRefresh
  dsimp only
  split <;> exact keepsOrPopsLow_dispatch _ _ _ hlpq

theorem keepsOrPopsLow_dispatchRepeat (s : State) : KeepsOrPopsLow s (dispatchRepeat s) := by
  unfold dispatchRepeat
  split
  · split
    · split
      · exact keepsOrPopsLow_dispatch _ _ _ rfl
      · exact keepsOrPopsLow_dispatchRefresh s
    · exact keepsOrPopsLow_dispatchRefresh s
  · exact keepsOrPopsLow_dispatchRefresh s

theorem keepsOrPopsLow_dispatchLow (s : State) : KeepsOrPopsLow s (dispatchLow s) := by
  unfold dispatchLow
  split
  next m hm =>
    split
    · intro t ht
      obtain ⟨-, -, rfl⟩ := dispatch_eq_next.mp ht
      exact .inr ⟨Ring.head_not_empty hm, rfl⟩
    · exact keepsOrPopsLow_dispatchRepeat s
  next => exact keepsOrPopsLow_dispatchRepeat s

theorem keepsOrPopsLow_organizerDispatch (s : State) : KeepsOrPopsLow s (organizerDispatch s) := by
  unfold organizerDispatch dispatchProg dispatchRun
  split
  · split <;> exact keepsOrPopsLow_dispatch _ _ _ rfl
  · split
    · split
      · exact keepsOrPopsLow_dispatch _ _ _ rfl
      · exact keepsOrPopsLow_dispatchLow s
    · exact keepsOrPopsLow_dispatchLow s

theorem dedupQueue_coreDispatch (h : coreDispatch s = .next t) (hs : DedupQueue n s.lpq) : DedupQueue n t.lpq := by
  unfold coreDispatch at h
  split at h
  · rcases keepsOrPopsLow_organizerDispatch s t h with ht | ⟨hempty, ht⟩
    · exact ht ▸ hs
    · exact ht ▸ hs.pop hempty
  · cases h
    exact hs

theorem dedupQueue_coreStep (h : coreStep s = .next t) (hs : DedupQueue n s.lpq) : DedupQueue n t.lpq := by
  obtain ⟨a, ha, h⟩ := andThen_eq_next.mp h
  obtain ⟨b, hb, ht⟩ := andThen_eq_next.mp h
  have hla : DedupQueue n a.lpq := dedupQueue_runCommand ha hs
  exact dedupQueue_coreDispatch ht ((progStep_lpq hb).symm ▸ hla)

theorem dedupQueue_step (h : step s = .next t) (hs : DedupQueue n s.lpq) : DedupQueue n t.lpq := by
  have he : (nextEvent s).2.lpq = s.lpq := by rw [nextEvent_frame]
  rw [← he] at hs
  by_cases hcore : (nextEvent s).1 = .coreStep
  · rw [step, hcore] at h
    exact dedupQueue_coreStep h hs
  · exact (perform_sameStorage hcore h).lpq ▸ hs

end Waiting

/-! ## One pending repeat of a key (42_organizer R214) -/

theorem rptKeysOnce_write {ok : Prop} {s t : State} (h : CoreWrite ok s t) (hs : RptKeysOnce s.rpt) :
    RptKeysOnce t.rpt := by
  cases h with
  | prog t hw => rw [hw.only]; exact hs
  | rpt l hl => exact hs.write hl
  | resp | ack | smq | hpq | lpq | loco | sweep => exact hs

theorem rptKeysOnce_step {s t : State} (h : step s = .next t) : RptKeysOnce s.rpt → RptKeysOnce t.rpt :=
  step_keeps (ok := False) (P := fun s => RptKeysOnce s.rpt) (fun _ _ => rptKeysOnce_write)
    (fun _ _ hsame hs => hsame.rpt ▸ hs) False.elim h

/-- Settles O32: messages enter `LPQ` by the deduplicating insert alone, and every write of the repeat buffer keeps its
pending keys apart. -/
theorem stepKeepsKeysOnce : Obligations.StepKeepsKeysOnce := by
  unfold Obligations.StepKeepsKeysOnce
  exact fun s t hs h => ⟨fun hlow => (dedupQueue_step h ⟨hs.lpq, hlow⟩).2, rptKeysOnce_step h⟩

/-! ## A `CORE` step in its parts (42_organizer R200) -/

theorem coreStep_of_decode {s : State} {w : CmdWord} {i : Instr} (hw : s.cmd = some w)
    (hi : decode s.params.extFuncs w = .ok i) :
    coreStep s = andThen (exec i { s with cmd := none }) afterCommand := by
  simp only [coreStep, runCommand, hw, hi]

/-- Settles O6, by the decoding of the word on the port. -/
theorem stepRunsDecodedCommand : Obligations.StepRunsDecodedCommand := by
  unfold Obligations.StepRunsDecodedCommand
  refine ⟨fun s w i hcore hw hi => ?_, fun s nbits n i hi => ?_, fun s rest h => ?_, fun s => rfl⟩
  · have hp : (nextEvent s).2.params = s.params := by rw [nextEvent_frame]
    rw [step, hcore]
    exact coreStep_of_decode hw (hp ▸ hi)
  · exact coreStep_of_decode (s := { s with cmd := some (tableWord nbits n) }) rfl hi
  · simp only [nextEvent, h, and_self]

end Sys2Proof.Machine
end

section
/-! SUPPORT. The refresh scheduler (42_organizer R220 to R223): what one iteration moves, which candidate the search
answers, and that the sweep comes to every entry. -/

namespace Sys2Proof.Machine

/-! ## One iteration (42_organizer R220, R222) -/

section Iteration

variable {p : Params} {w : Sweep}

theorem advanceCursor_of_lt (h : w.cursor + 1 < w.loco.length) :
    advanceCursor p w = { w with cursor := w.cursor + 1 } := by
  simp only [advanceCursor, Nat.mod_eq_of_lt h, Nat.succ_ne_zero, if_false]

theorem advanceCursor_of_wrap (h : w.cursor + 1 = w.loco.length) :
    advanceCursor p w = advanceLevel p { w with cursor := 0 } := by
  simp only [advanceCursor, h, Nat.mod_self, if_true]

/-- Settles O35: a wrap of the cursor is the only iteration that advances the level. -/
theorem sweepAdvanceRule : Obligations.SweepAdvanceRule := by
  unfold Obligations.SweepAdvanceRule
  refine fun p w _ => ⟨advanceCursor_of_lt, fun h hlevel => ?_, fun h hlevel => ?_⟩
  · exact (advanceCursor_of_wrap h).trans (if_pos hlevel)
  · exact (advanceCursor_of_wrap h).trans (if_neg (Nat.not_lt.mpr hlevel))

theorem advanceCursor_cursor (p : Params) (w : Sweep) :
    (advanceCursor p w).cursor = (w.cursor + 1) % w.loco.length := by
  unfold advanceCursor
  dsimp only
  split
  next h => rw [advanceLevel_cursor, h]
  next => rfl

theorem advanceLevel_level (h : w.level < refreshLevels p) :
    (advanceLevel p w).level = (w.level + 1) % refreshLevels p := by
  unfold advanceLevel
  split
  next hlt => exact (Nat.mod_eq_of_lt hlt).symm
  next hge =>
    have htop : w.level + 1 = refreshLevels p := Nat.le_antisymm h (Nat.not_lt.mp hge)
    rw [htop, Nat.mod_self]

theorem advanceCursor_level (h : w.level < refreshLevels p) : (advanceCursor p w).level =
    if (w.cursor + 1) % w.loco.length = 0 then (w.level + 1) % refreshLevels p else w.level := by
  unfold advanceCursor
  dsimp only
  split
  next => exact advanceLevel_level h
  next => rfl

end Iteration

/-! ## The search (42_organizer R220, R221, R223) -/

theorem refreshOf_eq_some {p : Params} {lvl : Nat} {e : LocoEntry} {m : Message} :
    refreshOf p lvl e = some m ↔ e.addr ≠ 0 ∧ e.active = true ∧
      ((lvl % 2 = 0 ∧ m = speedMsg p e.addr e.speed e.format (e.funcs.getLsbD 0)) ∨
        (lvl % 2 = 1 ∧ groupBits e.funcs ((lvl + 1) / 2) ≠ 0 ∧ m = groupMsg p e.addr ((lvl + 1) / 2) e.funcs)) := by
  unfold refreshOf
  split
  next h => exact ⟨nofun, fun ⟨h0, ha, _⟩ => (h.elim h0 fun hf => Bool.false_ne_true (hf.symm.trans ha)).elim⟩
  next h =>
    obtain ⟨h0, ha⟩ : e.addr ≠ 0 ∧ e.active = true := by simpa using h
    simp only [ne_eq, h0, not_false_eq_true, ha, true_and]
    split
    next heven => simp only [heven, true_and, Nat.zero_ne_one, false_and, or_false, Option.some.injEq,
      eq_comm (a := m)]
    next hodd =>
      have hodd : lvl % 2 = 1 := by omega
      split
      next hzero => simp [hodd, hzero]
      next hbits =>
        simp only [hodd, hbits, Nat.one_ne_zero, false_and, false_or, not_false_eq_true, true_and, Option.some.injEq,
          eq_comm (a := m)]

/-- What the entry under the cursor has to refresh. -/
def Sweep.candidate (p : Params) (w : Sweep) : Option Message := refreshOf p w.level (locoAt w.loco w.cursor)

theorem due_iff_candidate {p : Params} {w : Sweep} {m : Message} : Due p w m ↔ w.candidate p = some m :=
  refreshOf_eq_some.symm

theorem sizeOk_of_candidate {p : Params} {w : Sweep} {m : Message} (h : w.candidate p = some m) : sizeOk m = true := by
  obtain ⟨-, -, ⟨-, rfl⟩ | ⟨-, -, rfl⟩⟩ := refreshOf_eq_some.mp h
  · exact sizeOk_speedMsg _ _ _ _ _
  · exact sizeOk_groupMsg _ _ _ _

theorem locoAt_of_length_le {l : List LocoEntry} {i : Nat} (h : l.length ≤ i) : locoAt l i = emptyLoco := by
  simp [locoAt, List.getD, h]

/-- The ages of an iteration do not change what an entry has to refresh. -/
theorem refreshOf_advanceCursor (p : Params) (w : Sweep) (lvl i : Nat) :
    refreshOf p lvl (locoAt (advanceCursor p w).loco i) = refreshOf p lvl (locoAt w.loco i) := by
  rcases advanceCursor_loco p w with hl | hl <;> rw [hl]
  by_cases hi : i < w.loco.length
  · rw [locoAt_map_ageLoco p hi, refreshOf_ageLoco]
  · rw [locoAt_of_length_le (by simpa using hi), locoAt_of_length_le (by simpa using hi)]

theorem refreshScan_of_candidate {p : Params} {w : Sweep} {m : Message} (n : Nat) (h : w.candidate p = some m) :
    refreshScan p (n + 1) w = (some m, advanceCursor p w) := by
  have h : refreshOf p w.level (locoAt w.loco w.cursor) = some m := h
  simp only [refreshScan, refreshOf_advanceCursor, h]

theorem refreshScan_of_none {p : Params} {w : Sweep} (n : Nat) (h : w.candidate p = none) :
    refreshScan p (n + 1) w = refreshScan p n (advanceCursor p w) := by
  have h : refreshOf p w.level (locoAt w.loco w.cursor) = none := h
  simp only [refreshScan, refreshOf_advanceCursor, h]

/-- The search answers the first candidate of the sweeps it comes to, or none where none of them has one. -/
theorem refreshScan_cases (p : Params) (n : Nat) (w : Sweep) :
    (∃ k m, k < n ∧ (∀ j, j < k → ((advanceCursor p)^[j] w).candidate p = none) ∧
      ((advanceCursor p)^[k] w).candidate p = some m ∧ refreshScan p n w = (some m, (advanceCursor p)^[k + 1] w)) ∨
    ((∀ j, j < n → ((advanceCursor p)^[j] w).candidate p = none) ∧
      refreshScan p n w = (none, (advanceCursor p)^[n] w)) := by
  induction n generalizing w with
  | zero => exact .inr ⟨nofun, rfl⟩
  | succ n ih =>
    cases hc : w.candidate p with
    | some m => exact .inl ⟨0, m, n.succ_pos, nofun, hc, refreshScan_of_candidate n hc⟩
    | none =>
      have later {b : Nat} (h : ∀ j, j < b → ((advanceCursor p)^[j] (advanceCursor p w)).candidate p = none) :
          ∀ j, j < b + 1 → ((advanceCursor p)^[j] w).candidate p = none
        | 0, _ => hc
        | j + 1, hj => h j (Nat.lt_of_succ_lt_succ hj)
      rw [refreshScan_of_none n hc]
      rcases ih (advanceCursor p w) with ⟨k, m, hk, hfirst, hm, hscan⟩ | ⟨hnone, hscan⟩
      · exact .inl ⟨k + 1, m, Nat.succ_lt_succ hk, later hfirst, hm, hscan⟩
      · exact .inr ⟨later hnone, hscan⟩

/-- The iterations of one `refresh_next()` (42_organizer R220). -/
def searchBound (s : State) : Nat := s.loco.length * refreshLevels s.params

/-- The answer of `refresh_next()` is that of its search. -/
theorem refreshNext_cases (s : State) :
    (∃ k m, k < searchBound s ∧ (∀ j, j < k → (sweepAfter j s).candidate s.params = none) ∧
      (sweepAfter k s).candidate s.params = some m ∧
      refreshNext s = (m, .refresh, withSweep s (sweepAfter (k + 1) s))) ∨
    ((∀ j, j < searchBound s → (sweepAfter j s).candidate s.params = none) ∧
      refreshNext s = (dummyMsg s.params, .dummy, withSweep s (sweepAfter (searchBound s) s))) := by
  rcases refreshScan_cases s.params (searchBound s) (sweepOf s) with ⟨k, m, hk, hfirst, hm, hscan⟩ | ⟨hnone, hscan⟩
  · refine .inl ⟨k, m, hk, hfirst, hm, ?_⟩
    simp only [searchBound, sweepOf] at hscan
    simp only [refreshNext, hscan]
    rfl
  · refine .inr ⟨hnone, ?_⟩
    simp only [searchBound, sweepOf] at hscan
    simp only [refreshNext, hscan]
    rfl

/-- Settles O36: a sweep has a candidate exactly where one is due. -/
theorem refreshNextRule : Obligations.RefreshNextRule := by
  unfold Obligations.RefreshNextRule
  intro s c src s1 h
  have notDue {j : Nat} (hj : (sweepAfter j s).candidate s.params = none) (m : Message) :
      ¬ Due s.params (sweepAfter j s) m := fun hdue => by simp [due_iff_candidate.mp hdue] at hj
  rcases refreshNext_cases s with ⟨k, m, hk, hfirst, hm, hnext⟩ | ⟨hnone, hnext⟩
  · cases h.symm.trans hnext
    exact .inl ⟨k, hk, fun j m hj => notDue (hfirst j hj) m, due_iff_candidate.mpr hm, rfl, rfl⟩
  · cases h.symm.trans hnext
    exact .inr ⟨fun j m hj => notDue (hnone j hj) m, rfl, rfl, rfl⟩

/-! ## The sweep comes to every entry (42_organizer R220, R223) -/

/-- What an entry has to refresh at a level stays the same throughout the sweep. -/
theorem refreshOf_sweepAfter (s : State) (lvl i k : Nat) :
    refreshOf s.params lvl (locoAt (sweepAfter k s).loco i) = refreshOf s.params lvl (locoAt s.loco i) := by
  induction k with
  | zero => rfl
  | succ k ih =>
    rw [sweepAfter, Function.iterate_succ_apply', refreshOf_advanceCursor]
    exact ih

theorem sweepAfter_length (s : State) (k : Nat) : (sweepAfter k s).loco.length = s.loco.length := by
  induction k with
  | zero => rfl
  | succ k ih =>
    rw [sweepAfter, Function.iterate_succ_apply', advanceCursor_length]
    exact ih

/-- The place of the sweep in its cycle of levels and cursors. -/
def sweepPlace (s : State) : Nat := s.rfLevel * s.loco.length + s.rfCursor

/-- After `k` iterations the sweep stands `k` places further in its cycle. -/
theorem sweepAfter_place {s : State} (hcursor : s.rfCursor < s.loco.length)
    (hlevel : s.rfLevel < refreshLevels s.params) (k : Nat) :
    (sweepAfter k s).cursor = (sweepPlace s + k) % s.loco.length ∧
      (sweepAfter k s).level = (sweepPlace s + k) / s.loco.length % refreshLevels s.params := by
  have hpos : 0 < s.loco.length := Nat.zero_lt_of_lt hcursor
  induction k with
  | zero =>
    constructor
    · rw [sweepPlace, Nat.add_zero, Nat.mul_add_mod', Nat.mod_eq_of_lt hcursor]
      rfl
    · rw [sweepPlace, Nat.add_zero, Nat.mul_comm, Nat.mul_add_div hpos, Nat.div_eq_of_lt hcursor, Nat.add_zero,
        Nat.mod_eq_of_lt hlevel]
      rfl
  | succ k ih =>
    obtain ⟨hc, hl⟩ := ih
    have hlt : (sweepAfter k s).level < refreshLevels s.params := hl ▸ Nat.mod_lt _ (refreshLevels_pos _)
    have hnext : sweepAfter (k + 1) s = advanceCursor s.params (sweepAfter k s) := Function.iterate_succ_apply' ..
    have hmod : ((sweepAfter k s).cursor + 1) % s.loco.length = (sweepPlace s + k + 1) % s.loco.length := by
      rw [hc, Nat.mod_add_mod]
    rw [hnext, advanceCursor_cursor, advanceCursor_level hlt, sweepAfter_length, hmod, ← Nat.add_assoc]
    refine ⟨rfl, ?_⟩
    simp only [Nat.succ_div, Nat.dvd_iff_mod_eq_zero]
    split
    · rw [hl, Nat.mod_add_mod]
    · rw [hl, Nat.add_zero]

/-- The sweep comes to every entry at level 0 within one cycle. -/
theorem exists_sweepAfter_eq {s : State} (hcursor : s.rfCursor < s.loco.length)
    (hlevel : s.rfLevel < refreshLevels s.params) {i : Nat} (hi : i < s.loco.length) :
    ∃ k, k < searchBound s ∧ (sweepAfter k s).cursor = i ∧ (sweepAfter k s).level = 0 := by
  have hpos : 0 < s.loco.length := Nat.zero_lt_of_lt hcursor
  have hplace : sweepPlace s < searchBound s := by
    calc sweepPlace s < s.rfLevel * s.loco.length + s.loco.length := Nat.add_lt_add_left hcursor _
      _ = (s.rfLevel + 1) * s.loco.length := (Nat.succ_mul ..).symm
      _ ≤ refreshLevels s.params * s.loco.length := Nat.mul_le_mul_right _ hlevel
      _ = searchBound s := Nat.mul_comm ..
  have stands {k : Nat} := sweepAfter_place hcursor hlevel k
  by_cases hbefore : sweepPlace s ≤ i
  · have hk : sweepPlace s + (i - sweepPlace s) = i := by omega
    have hfirst : i < searchBound s := hi.trans_le (Nat.le_mul_of_pos_right _ (refreshLevels_pos _))
    refine ⟨i - sweepPlace s, by omega, ?_, ?_⟩
    · rw [stands.1, hk, Nat.mod_eq_of_lt hi]
    · rw [stands.2, hk, Nat.div_eq_of_lt hi, Nat.zero_mod]
  · have hk : sweepPlace s + (searchBound s + i - sweepPlace s) = s.loco.length * refreshLevels s.params + i := by
      rw [← searchBound]
      omega
    refine ⟨searchBound s + i - sweepPlace s, by omega, ?_, ?_⟩
    · rw [stands.1, hk, Nat.mul_add_mod, Nat.mod_eq_of_lt hi]
    · rw [stands.2, hk, Nat.mul_add_div hpos, Nat.div_eq_of_lt hi, Nat.add_zero, Nat.mod_self]

theorem refreshOf_of_inactive {e : LocoEntry} (p : Params) (lvl : Nat) (h : e.addr = 0 ∨ e.active = false) :
    refreshOf p lvl e = none := if_pos h

/-- Settles O37: within one cycle the sweep comes to an active entry at level 0, where its speed is due. -/
theorem refreshFindsActive : Obligations.RefreshFindsActive := by
  unfold Obligations.RefreshFindsActive
  refine fun s hs => ⟨fun ⟨e, he, h0, hactive⟩ => ?_, fun hnone => ?_⟩
  · rcases refreshNext_cases s with ⟨k, m, -, -, -, hnext⟩ | ⟨hnever, -⟩
    · rw [hnext]
    · obtain ⟨i, hi, rfl⟩ := List.getElem_of_mem he
      obtain ⟨k, hk, hcur, hlvl⟩ := exists_sweepAfter_eq (hs.loco ▸ hs.cursor) hs.level hi
      have hspeed := (refreshOf_eq_some (p := s.params) (lvl := 0)).mpr ⟨h0, hactive, .inl ⟨rfl, rfl⟩⟩
      have hnever := hnever k hk
      rw [Sweep.candidate, hcur, hlvl, refreshOf_sweepAfter, locoAt_of_lt hi, hspeed] at hnever
      cases hnever
  · rcases refreshNext_cases s with ⟨k, m, -, -, hm, -⟩ | ⟨-, hnext⟩
    · have hinactive : (locoAt s.loco (sweepAfter k s).cursor).addr = 0 ∨
          (locoAt s.loco (sweepAfter k s).cursor).active = false := by
        by_cases hi : (sweepAfter k s).cursor < s.loco.length
        · exact locoAt_of_lt hi ▸ hnone _ (List.getElem_mem hi)
        · exact .inl (by rw [locoAt_of_length_le (Nat.not_lt.mp hi)]; rfl)
      rw [Sweep.candidate, refreshOf_sweepAfter, refreshOf_of_inactive _ _ hinactive] at hm
      cases hm
    · rw [hnext]
      exact ⟨rfl, rfl⟩

end Sys2Proof.Machine
end

section
/-! SUPPORT. The selection of the next message, branch by branch (42_organizer R201, R202, R225). -/

namespace Sys2Proof.Machine

section Selection

variable {s : State} {m : Message}

theorem differs_iff : differs s m = true ↔ Differs s m := by
  simp only [differs, sameMsg, Differs, Bool.or_eq_true, Bool.not_eq_true', Bool.and_eq_false_iff, beq_eq_false_iff_ne,
    ne_eq, not_and_or]

theorem differs_eq_false : differs s m = false ↔ ¬ Differs s m := by
  rw [← differs_iff, Bool.not_eq_true]

/-! ## Branches 1 to 3 (42_organizer R201) -/

theorem dispatchRun_of_withheld (h : Withheld s s.hpq) : dispatchRun s = dispatchLow s := by
  unfold dispatchRun
  split
  next x hx => simp only [differs_eq_false.mpr (h x hx), Bool.false_eq_true, if_false]
  next => rfl

theorem dispatchLow_of_withheld (h : Withheld s s.lpq) : dispatchLow s = dispatchRepeat s := by
  unfold dispatchLow
  split
  next x hx => simp only [differs_eq_false.mpr (h x hx), Bool.false_eq_true, if_false]
  next => rfl

theorem dispatchProg_of_head (hfree : s.mbxCnt = 0) (hm : sizeOk m = true) (h : s.smq.head = some m) :
    dispatchProg s = .next (Dispatched m (m.rep + 1) .smq { s with smq := s.smq.pop }) := by
  simp only [dispatchProg, h]
  exact dispatch_eq_next.mpr ⟨hfree, hm, rfl⟩

theorem dispatchProg_of_empty (hfree : s.mbxCnt = 0) (h : s.smq.head = none) :
    dispatchProg s = .next (Dispatched idleMsg 1 .idle s) := by
  simp only [dispatchProg, h]
  exact dispatch_eq_next.mpr ⟨hfree, sizeOk_idleMsg, rfl⟩

theorem dispatchRun_of_head (hfree : s.mbxCnt = 0) (hm : sizeOk m = true) (hd : Differs s m) (h : s.hpq.head = some m) :
    dispatchRun s = .next (Dispatched m 1 .hpq { s with hpq := s.hpq.pop }) := by
  simp only [dispatchRun, h, differs_iff.mpr hd, if_true]
  exact dispatch_eq_next.mpr ⟨hfree, hm, rfl⟩

theorem dispatchLow_of_head (hfree : s.mbxCnt = 0) (hm : sizeOk m = true) (hd : Differs s m) (h : s.lpq.head = some m) :
    dispatchLow s = .next (Dispatched m 1 .lpq { s with lpq := s.lpq.pop, rpt := rptPut m s.rpt }) := by
  simp only [dispatchLow, h, differs_iff.mpr hd, if_true]
  exact dispatch_eq_next.mpr ⟨hfree, hm, rfl⟩

theorem organizerDispatch_prog (h : isProg s.runMode = true) : organizerDispatch s = dispatchProg s := if_pos h

theorem organizerDispatch_run (h : isProg s.runMode = false) : organizerDispatch s = dispatchRun s :=
  if_neg (Bool.eq_false_iff.mp h)

/-- Settles O33, branch by branch. -/
theorem selectionQueues : Obligations.SelectionQueues := by
  unfold Obligations.SelectionQueues
  refine fun s hfree => ⟨fun hmode => ?_, fun hmode m hm hd => ?_⟩
  · rw [organizerDispatch_prog hmode]
    exact ⟨fun m hhead hm => dispatchProg_of_head hfree hm hhead, dispatchProg_of_empty hfree⟩
  · rw [organizerDispatch_run hmode]
    refine ⟨dispatchRun_of_head hfree hm hd, fun hheld hhead => ?_⟩
    rw [dispatchRun_of_withheld hheld]
    exact dispatchLow_of_head hfree hm hd hhead

/-! ## Branches 4 to 6 (42_organizer R201, R202) -/

theorem dispatchRepeat_of_none (h : rptSelect s.rpt = none) : dispatchRepeat s = dispatchRefresh s := by
  simp only [dispatchRepeat, h]

theorem dispatchRepeat_of_selected {j : Nat} {e : RptEntry} (hj : rptSelect s.rpt = some j) (he : s.rpt[j]? = some e)
    (hfree : s.mbxCnt = 0) :
    (Differs s e.msg → sizeOk e.msg = true → dispatchRepeat s =
      .next (Dispatched e.msg 1 .rpt { s with rpt := s.rpt.set j { e with cnt := e.cnt - 1 } })) ∧
    (¬ Differs s e.msg → dispatchRepeat s = dispatchRefresh s) := by
  simp only [dispatchRepeat, hj, he]
  refine ⟨fun hd hm => ?_, fun hd => ?_⟩
  · rw [if_pos (differs_iff.mpr hd)]
    exact dispatch_eq_next.mpr ⟨hfree, hm, rfl⟩
  · rw [differs_eq_false.mpr hd, if_neg Bool.false_ne_true]

/-- The refresh candidate, or the dummy, has a legal size. -/
theorem sizeOk_refreshNext (s : State) : sizeOk (refreshNext s).1 = true := by
  rcases refreshNext_cases s with ⟨k, m, -, -, hm, hnext⟩ | ⟨-, hnext⟩ <;> rw [hnext]
  · exact sizeOk_of_candidate hm
  · exact sizeOk_mkMsg _ _ (by simp) (by simp)

theorem dispatchRefresh_cases (hfree : s.mbxCnt = 0) {c : Message} {src : MbxSrc} {s1 : State}
    (h : refreshNext s = (c, src, s1)) :
    (Differs s c → dispatchRefresh s = .next (Dispatched c 1 src s1)) ∧
    (¬ Differs s c → dispatchRefresh s = .next (Dispatched idleMsg 1 .idle s1)) := by
  have hc : sizeOk c = true := by simpa only [h] using sizeOk_refreshNext s
  have hs1 := refreshNext_frame s
  simp only [h] at hs1
  have hfree1 : s1.mbxCnt = 0 := by rw [hs1]; exact hfree
  have hd1 : differs s1 c = differs s c := by rw [hs1]; rfl
  simp only [dispatchRefresh, h, hd1]
  refine ⟨fun hd => ?_, fun hd => ?_⟩
  · rw [if_pos (differs_iff.mpr hd)]
    exact dispatch_eq_next.mpr ⟨hfree1, hc, rfl⟩
  · rw [differs_eq_false.mpr hd, if_neg Bool.false_ne_true]
    exact dispatch_eq_next.mpr ⟨hfree1, sizeOk_idleMsg, rfl⟩

end Selection

/-- Settles O34: both heads withheld leave the repeat buffer, then the refresh candidate. -/
theorem selectionRest : Obligations.SelectionRest := by
  unfold Obligations.SelectionRest
  intro s hfree hmode hhigh hlow
  have hrest : organizerDispatch s = dispatchRepeat s := by
    rw [organizerDispatch_run hmode, dispatchRun_of_withheld hhigh, dispatchLow_of_withheld hlow]
  rw [hrest]
  exact ⟨fun j x hx hc hmax hfirst => dispatchRepeat_of_selected (rptSelect_eq_some hx hc hmax hfirst) hx hfree,
    fun hzero => dispatchRepeat_of_none (rptSelect_eq_none hzero),
    fun c src s1 h => dispatchRefresh_cases hfree h⟩

end Sys2Proof.Machine
end

section
/-! SUPPORT. The programmer's commands: the task starts and the terminate (43_programmer R261, R285, R287). -/

namespace Sys2Proof.Machine

/-! ## Task start (43_programmer R261) -/

/-- The operands of a start are those of the command's word, read off its fields. -/
structure ArgsOf (i : Instr) (a : TaskArgs) : Prop where
  data : a.data = i.fields.data
  bit : a.bit = i.fields.aux.setWidth 3
  val : a.val = i.fields.aux.getLsbD 3
  addr : a.addr = i.fields.addr.setWidth 14
  addrExact : i.op = .progLongaddrWrite → a.addr.toNat = i.fields.addr.toNat
  cva : i.op.usesCv = true → a.cva.toNat + 1 = i.fields.cv.toNat
  reg : i.op = .progRegRead ∨ i.op = .progRegWrite → a.reg.toNat + 1 = i.fields.addr.toNat

theorem toNat_cvField (c : CvAddr) : (cvField c).toNat = c.toNat + 1 := by
  have := c.isLt
  simp [cvField]
  omega

theorem toNat_regField (r : RegIdx) : (regField r).toNat = r.toNat + 1 := by
  have := r.isLt
  simp [regField]
  omega

theorem regAddrField_eq (r : RegIdx) : regAddrField r = (regField r).setWidth 14 := by
  revert r
  decide

theorem bitAux_position (b : BitPos) (v : Bool) : (bitAux b v).setWidth 3 = b := by
  revert b v
  decide

theorem bitAux_value (b : BitPos) (v : Bool) : (bitAux b v).getLsbD 3 = v := by
  revert b v
  decide

/-- A command of a task starts it with the operands of its word. -/
theorem exec_start {i : Instr} {op : TaskOp} (h : taskOf i = some op) (s : State) :
    ∃ a, ArgsOf i a ∧ exec i s = start op a s := by
  cases i <;> cases h <;> refine ⟨_, ?_, rfl⟩
  case progRegRead r | progRegWrite r _ =>
    exact ⟨rfl, rfl, BitVec.getLsbD_zero.symm, regAddrField_eq r, nofun, nofun, fun _ => (toNat_regField r).symm⟩
  case progPagedRead c | progPagedWrite c _ | progDirectRead c | progDirectWrite c _ =>
    exact ⟨rfl, rfl, BitVec.getLsbD_zero.symm, rfl, nofun, fun _ => (toNat_cvField c).symm, nofun⟩
  case progDirectBitWrite c b v | progDirectBitVerify c b v =>
    exact ⟨rfl, (bitAux_position b v).symm, (bitAux_value b v).symm, rfl, nofun, fun _ => (toNat_cvField c).symm,
      nofun⟩
  case progLongaddrRead | progQueryBitcap => exact ⟨rfl, rfl, BitVec.getLsbD_zero.symm, rfl, nofun, nofun, nofun⟩
  case progLongaddrWrite a =>
    have := a.isLt
    refine ⟨rfl, rfl, BitVec.getLsbD_zero.symm, ?_, fun _ => ?_, nofun, nofun⟩ <;> simp [Instr.fields, Instr.addrField]
    omega

theorem seqOpCode_of_taskOf {i : Instr} {op : TaskOp} (h : taskOf i = some op) : seqOpCode (some op) = i.op.code := by
  cases i <;> cases h <;> rfl

theorem op_of_longaddrWrite {i : Instr} (h : taskOf i = some .longaddrWrite) : i.op = .progLongaddrWrite := by
  cases i <;> cases h
  rfl

/-- The initial step is 0, but for the write of a short address (43_programmer R285). -/
theorem initialPc_eq (p : Params) (op : TaskOp) (a : LocoAddr) :
    initialPc p op a = if op = .longaddrWrite ∧ a.toNat < p.longAddrMin then 4 else 0 := by
  cases op
  case longaddrWrite => by_cases h : a.toNat < p.longAddrMin <;> simp [initialPc, h]
  all_goals rfl

/-- Settles O44: the command is a start with the operands of its word, and a start answers busy or resets the layers. -/
theorem startRule : Obligations.StartRule := by
  unfold Obligations.StartRule
  intro s i op hop
  obtain ⟨a, ha, hexec⟩ := exec_start hop s
  rw [hexec]
  refine ⟨fun hb => ?_, fun hb => ⟨respond stAccepted 0 (startTask op a s), ?_, rfl, ?_, seqOpCode_of_taskOf hop,
    ha.cva, ha.reg⟩⟩
  · rw [start, if_pos hb]
    rfl
  · rw [start, if_neg (by simp [hb])]
  · have hpc : initialPc s.params op a.addr =
        if op = .longaddrWrite ∧ i.fields.addr.toNat < s.params.longAddrMin then 4 else 0 := by
      rw [initialPc_eq]
      by_cases hl : op = .longaddrWrite
      · subst hl
        rw [ha.addrExact (op_of_longaddrWrite hop)]
      · simp [hl]
    simp only [respond_prog, startTask, setProg_prog, hpc, ← ha.data, ← ha.bit, ← ha.val, ← ha.addr]
    rfl

/-! ## Terminate (43_programmer R287) -/

theorem terminateTask_of_enter {g : Programmer} (h : g.seqState = .enter) : terminateTask g = { g with
    innerState := .idle, byteBusy := false, byteDone := false, prResult := 0x0A, prBusy := false, seqState := .idle } :=
  if_pos h

theorem terminateTask_of_other {g : Programmer} (h : g.seqState ≠ .enter) : terminateTask g = { g with
    innerState := .idle, byteBusy := false, byteDone := false, prResult := 0x0A, seqState := .exit } :=
  if_neg h

theorem exec_progTerminate_of_busy {s : State} (hb : s.prog.prBusy = true) :
    exec .progTerminate s = .next { s with prog := terminateTask s.prog, resp := 0x40000A } :=
  if_pos hb

theorem exec_progTerminate_of_noTask {s : State} (hb : s.prog.prBusy = false) :
    exec .progTerminate s = .next { s with prog := { s.prog with prResult := 0x0B }, resp := 0x40000B } :=
  if_neg (by simp [hb])

/-- Settles O45, case by case. -/
theorem terminateRule : Obligations.TerminateRule := by
  unfold Obligations.TerminateRule
  refine fun s => ⟨exec_progTerminate_of_noTask, fun hb hs => ?_, fun hb hs => ?_⟩
  · rw [exec_progTerminate_of_busy hb, terminateTask_of_enter hs]
  · rw [exec_progTerminate_of_busy hb, terminateTask_of_other hs]

end Sys2Proof.Machine
end

section
/-! SUPPORT. The programmer's registers from step to step: the nesting of the layers and the result codes (43_programmer
R264, R271, R273, R290, 60_exceptions R325), and when `PR_BUSY` and the results move (R288, R290). -/

namespace Sys2Proof.Machine

/-! ## The operations on the registers (43_programmer R267, R273) -/

theorem innerStart_eq (m : Message) (wr : Bool) (s : State) :
    innerStart m wr s = { s with prog := innerStarted m wr s.prog } := rfl

theorem byteFinish_eq (r : ByteRes) (s : State) : byteFinish r s = { s with prog := byteEnded r s.prog } := rfl

/-! ## The invariant -/

/-- The layers nest and the result is a code of the taxonomy: what every step keeps. -/
def ProgOk (g : Programmer) : Prop := LayersOk g ∧ ResultOk g

/-- What `prog_step` leaves of a task: the invariant, and a result other than `NONE` where the task has ended. -/
def TaskOk (g : Programmer) : Prop := ProgOk g ∧ (g.seqState = .idle → g.prResult ≠ resultNone)

/-- The invariant in `S_STEP`, where the three layers work. -/
structure Working (g : Programmer) : Prop where
  state : g.seqState = .step
  busy : g.prBusy = true
  byte : g.byteBusy = true → g.byteDone = false
  inner : g.innerState ≠ .idle → g.byteBusy = true
  pc : ∃ op, g.seqOp = some op ∧ pcListed op g.seqPc = true
  result : g.prResult.toNat ≤ 0x0B ∨ g.prResult = resultNone

theorem ProgOk.working {g : Programmer} (h : ProgOk g) (hs : g.seqState = .step) : Working g := by
  obtain ⟨⟨hbusy, hbyte, -, hinner, hpc⟩, hresult, -⟩ := h
  exact ⟨hs, hbusy.mpr (by simp [hs]), fun hb => (hbyte hb).2, hinner, hpc (by simp [hs]), hresult⟩

theorem Working.ok {g : Programmer} (h : Working g) : TaskOk g := by
  obtain ⟨hs, hbusy, hbyte, hinner, hpc, hresult⟩ := h
  have hlayers : LayersOk g :=
    ⟨by simp [hs, hbusy], fun hb => ⟨hs, hbyte hb⟩, fun _ => hs, hinner, fun _ => hpc⟩
  exact ⟨⟨hlayers, hresult, by simp [hs]⟩, by simp [hs]⟩

/-- Outside `S_STEP` the byte and the inner layer rest. -/
theorem LayersOk.rest {g : Programmer} (h : LayersOk g) (hs : g.seqState ≠ .step) :
    g.byteBusy = false ∧ g.byteDone = false ∧ g.innerState = .idle := by
  have hb : g.byteBusy = false := Bool.eq_false_iff.mpr fun hb => hs (h.byte hb).1
  refine ⟨hb, Bool.eq_false_iff.mpr fun hd => hs (h.byteDone hd), ?_⟩
  by_contra hi
  exact Bool.false_ne_true (hb.symm.trans (h.inner hi))

/-- The invariant where the byte and the inner layer rest. -/
theorem progOk_of_rest {g : Programmer} (hbyte : g.byteBusy = false) (hdone : g.byteDone = false)
    (hinner : g.innerState = .idle) (hbusy : g.prBusy = true ↔ g.seqState ≠ .idle)
    (hpc : g.seqState ≠ .idle → ∃ op, g.seqOp = some op ∧ pcListed op g.seqPc = true) (hresult : ResultOk g) :
    ProgOk g :=
  ⟨⟨hbusy, by simp [hbyte], by simp [hdone], by simp [hinner], hpc⟩, hresult⟩

/-- A code of the taxonomy is not `NONE`. -/
theorem ne_resultNone {code : Byte} (h : code.toNat ≤ 0x0B) : code ≠ resultNone := by
  rintro rfl
  simp [resultNone] at h

theorem ProgOk.finished {g : Programmer} {code : Byte} (h : ProgOk g) (hs : g.seqState ≠ .idle)
    (hc : code.toNat ≤ 0x0B) : ProgOk (finished code g) :=
  progOk_of_rest rfl rfl rfl (by simp [Machine.finished, h.1.busy.mpr hs]) (fun _ => h.1.pc hs)
    ⟨.inl hc, fun _ => ne_resultNone hc⟩

/-! ## The byte layer (43_programmer R273 to R279) -/

/-- The registers that say where the layers stand. -/
def Programmer.controls (g : Programmer) :
    SeqState × Bool × Bool × Bool × InnerState × Option TaskOp × BitVec 3 × Byte :=
  (g.seqState, g.prBusy, g.byteBusy, g.byteDone, g.innerState, g.seqOp, g.seqPc, g.prResult)

namespace Working

variable {g : Programmer}

theorem of_controls {g' : Programmer} (h : Working g) (hc : g'.controls = g.controls) : Working g' := by
  simp only [Programmer.controls, Prod.mk.injEq] at hc
  obtain ⟨h1, h2, h3, h4, h5, h6, h7, h8⟩ := hc
  constructor <;> simp only [h1, h2, h3, h4, h5, h6, h7, h8]
  exacts [h.state, h.busy, h.byte, h.inner, h.pc, h.result]

theorem setProg {f : Programmer → Programmer} {s : State} (h : Working s.prog)
    (hc : (f s.prog).controls = s.prog.controls) : Working (setProg f s).prog :=
  h.of_controls hc

theorem finished {code : Byte} (h : Working g) (hc : code.toNat ≤ 0x0B) : TaskOk (finished code g) :=
  ⟨h.ok.1.finished (by simp [h.state]) hc, fun _ => ne_resultNone hc⟩

theorem innerStarted (h : Working g) (hb : g.byteBusy = true) (m : Message) (wr : Bool) :
    Working (innerStarted m wr g) :=
  ⟨h.state, h.busy, h.byte, fun _ => hb, h.pc, h.result⟩

theorem byteStart {op : ByteOp} {mode : ByteMode} {c : CvAddr} {d : Byte} {b : BitPos} {v : Bool} {s : State}
    (h : Working s.prog) : Working (byteStart op mode c d b v s).prog :=
  ⟨h.state, h.busy, fun _ => rfl, fun _ => rfl, h.pc, h.result⟩

theorem byteEnded (h : Working g) (hi : g.innerState = .idle) (r : ByteRes) : Working (byteEnded r g) :=
  ⟨h.state, h.busy, fun hb => absurd hb Bool.false_ne_true, fun hi' => absurd hi hi', h.pc, h.result⟩

theorem setInner (h : Working g) (hb : g.byteBusy = true) (st : InnerState) : Working { g with innerState := st } :=
  ⟨h.state, h.busy, h.byte, fun _ => hb, h.pc, h.result⟩

theorem setDone (h : Working g) (hb : g.byteBusy = false) (d : Bool) : Working { g with byteDone := d } :=
  ⟨h.state, h.busy, by simp [hb], h.inner, h.pc, h.result⟩

theorem setPc (h : Working g) {op : TaskOp} {pc : BitVec 3} (hop : g.seqOp = some op) (hpc : pcListed op pc = true) :
    Working { g with seqPc := pc } :=
  ⟨h.state, h.busy, h.byte, h.inner, ⟨op, hop, hpc⟩, h.result⟩

end Working

section ByteLayer

variable {s : State}

theorem working_byteFinish {r : ByteRes} (h : Working s.prog) (hi : s.prog.innerState = .idle) :
    Working (byteFinish r s).prog :=
  h.byteEnded hi r

theorem working_capDecided {yes : Bool} (h : Working s.prog) (hi : s.prog.innerState = .idle) :
    Working (capDecided yes s).prog := by
  unfold capDecided
  split
  · exact h.byteEnded hi _
  · exact h.of_controls rfl

theorem working_phaseIssue (h : Working s.prog) (hi : s.prog.innerState = .idle) (hb : s.prog.byteBusy = true) :
    Working (phaseIssue s).prog := by
  unfold phaseIssue
  split
  · split
    · exact working_capDecided h hi
    · exact h.innerStarted hb _ _
  · split <;> exact h.innerStarted hb _ _
  · exact h.innerStarted hb _ _

theorem working_byteIssue (h : Working s.prog) (hi : s.prog.innerState = .idle) (hb : s.prog.byteBusy = true) :
    Working (byteIssue s).prog := by
  cases hop : s.prog.byteOp <;> simp only [byteIssue, hop]
  case writeByte | writeBit | verifyBit => exact h.innerStarted hb _ _
  case scanRead | readDirect | capProbe => exact working_phaseIssue h hi hb

theorem working_capResult {a : Bool} (h : Working s.prog) (hi : s.prog.innerState = .idle) :
    Working (capResult a s).prog := by
  unfold capResult
  dsimp only
  split
  · exact h.of_controls rfl
  · exact working_capDecided (h.setProg rfl) hi

theorem working_bitsResult {a : Bool} (h : Working s.prog) (hi : s.prog.innerState = .idle) :
    Working (bitsResult a s).prog := by
  unfold bitsResult
  split
  · exact h.of_controls rfl
  · split
    · exact working_byteFinish (h.setProg rfl) hi
    · exact h.byteEnded hi _

theorem working_scanResult {a : Bool} (h : Working s.prog) (hi : s.prog.innerState = .idle) :
    Working (scanResult a s).prog := by
  unfold scanResult
  split
  · exact working_byteFinish (h.setProg rfl) hi
  · split
    · exact h.byteEnded hi _
    · exact h.of_controls rfl

theorem working_byteResult {a : Bool} (h : Working s.prog) (hi : s.prog.innerState = .idle) :
    Working (byteResult a s).prog := by
  have hphase : Working (phaseResult a s).prog := by
    cases hp : s.prog.bytePh <;> simp only [phaseResult, hp]
    case cap => exact working_capResult h hi
    case bits => exact working_bitsResult h hi
    case scan => exact working_scanResult h hi
  cases hop : s.prog.byteOp <;> simp only [byteResult, hop]
  case writeByte | writeBit | verifyBit => exact h.byteEnded hi _
  case scanRead | readDirect | capProbe => exact hphase

/-- A byte step at the byte layer's turn keeps the layers nested. -/
theorem working_byteStep (h : Working s.prog) (hi : s.prog.innerState = .idle ∨ s.prog.innerState = .done)
    (hb : s.prog.byteBusy = true) : Working (byteStep s).prog := by
  unfold byteStep
  split
  next => exact working_byteResult (h.setInner hb .idle) rfl
  next hd => exact working_byteIssue h (hi.resolve_right hd) hb

/-- An inner step moves `INNER_STATE` and `INNER_ACK` alone. -/
theorem innerStep_prog (s : State) :
    ∃ st ack, (innerStep s).prog = { s.prog with innerState := st, innerAck := ack } := by
  have push (m : Message) (st : InnerState) :
      ∃ st' ack, (innerPush m st s).prog = { s.prog with innerState := st', innerAck := ack } := by
    unfold innerPush
    split
    · exact ⟨st, s.prog.innerAck, rfl⟩
    · exact ⟨s.prog.innerState, s.prog.innerAck, rfl⟩
  have wait : ∃ st ack, (innerWait s).prog = { s.prog with innerState := st, innerAck := ack } := by
    have hp : (ackPoll s).2.prog = s.prog := by rw [ackPoll_frame]
    simp only [innerWait]
    split <;> split <;> simp only [setProg_prog, hp] <;> exact ⟨_, _, rfl⟩
  cases hi : s.prog.innerState <;> simp only [innerStep, hi]
  case pre | cmd | post => exact push _ _
  case wait => exact wait
  case idle | done => exact ⟨s.prog.innerState, s.prog.innerAck, rfl⟩

theorem working_innerStep (h : Working s.prog) (hi : s.prog.innerState ≠ .idle) : Working (innerStep s).prog := by
  obtain ⟨st, ack, hg⟩ := innerStep_prog s
  exact hg ▸ (h.setInner (h.inner hi) st).of_controls rfl

end ByteLayer

/-! ## The sequence layer (43_programmer R280 to R286) -/

/-- The outcome, where it is a next state, is one that `prog_step` may leave of a task. -/
def AnswersOk (o : Result) : Prop := ∀ t, o = .next t → TaskOk t.prog

theorem answersOk_next {t : State} (h : TaskOk t.prog) : AnswersOk (.next t) := by
  rintro _ ⟨⟩
  exact h

theorem answersOk_unlisted (s : State) : AnswersOk (unlisted s) := by
  rintro _ ⟨⟩

theorem answersOk_ite {c : Prop} [Decidable c] {a b : Result} (ha : AnswersOk a) (hb : AnswersOk b) :
    AnswersOk (if c then a else b) := by
  split
  · exact ha
  · exact hb

section SequenceLayer

variable {s : State}

theorem toNat_mapRes_le (r : ByteRes) : (mapRes r).toNat ≤ 0x0B := by
  cases r <;> decide

theorem taskOk_toPc (h : Working s.prog) {op : TaskOp} {pc : BitVec 3} (hop : s.prog.seqOp = some op)
    (hpc : pcListed op pc = true) : TaskOk (toPc pc s).prog :=
  (h.setPc hop hpc).ok

theorem taskOk_pagedIssue0 (h : Working s.prog) {op : TaskOp} (hop : s.prog.seqOp = some op)
    (h1 : pcListed op 1 = true) : TaskOk (pagedIssue0 s).prog := by
  unfold pagedIssue0
  split
  · exact taskOk_toPc h hop h1
  · exact h.byteStart.ok

theorem taskOk_pagedResult0 (h : Working s.prog) {op : TaskOp} (hop : s.prog.seqOp = some op)
    (h1 : pcListed op 1 = true) (r : ByteRes) : TaskOk (pagedResult0 r s).prog := by
  unfold pagedResult0
  split
  · exact taskOk_toPc (s := setProg _ s) (h.of_controls rfl) hop h1
  · exact Working.finished (h.of_controls rfl) (by decide)

theorem taskOk_readResult (h : Working s.prog) (r : ByteRes) (v : Byte) : TaskOk (readResult r v s).prog := by
  unfold readResult
  split
  · exact Working.finished (h.of_controls rfl) (by decide)
  · exact h.finished (toNat_mapRes_le r)

theorem taskOk_writeResult (h : Working s.prog) (r : ByteRes) : TaskOk (writeResult r s).prog := by
  unfold writeResult
  split
  · exact h.finished (by decide)
  · exact h.finished (toNat_mapRes_le r)

theorem answersOk_seqIssue (h : Working s.prog) : AnswersOk (seqIssue s) := by
  have starts {op mode c d b v} : AnswersOk (.next (byteStart op mode c d b v s)) :=
    answersOk_next h.byteStart.ok
  have none := answersOk_unlisted s
  rcases hop : s.prog.seqOp with _ | op <;> simp only [seqIssue, hop]
  · exact none
  cases op
  case regWrite =>
    refine answersOk_ite (answersOk_next (Working.byteStart ?_).ok) none
    exact h.setProg rfl
  case pagedRead | pagedWrite =>
    exact answersOk_ite (answersOk_next (taskOk_pagedIssue0 h hop rfl)) (answersOk_ite starts none)
  case regRead | directRead | directWrite | bitWrite | bitVerify | queryBitcap => exact answersOk_ite starts none
  case longaddrRead =>
    exact answersOk_ite starts (answersOk_ite starts (answersOk_ite starts (answersOk_ite starts none)))
  case longaddrWrite =>
    exact answersOk_ite starts (answersOk_ite starts (answersOk_ite starts (answersOk_ite starts
      (answersOk_ite starts none))))

theorem answersOk_longaddrReadOk (h : Working s.prog) (hop : s.prog.seqOp = some .longaddrRead) (v : Byte) :
    AnswersOk (longaddrReadOk v s) := by
  unfold longaddrReadOk
  refine answersOk_ite (answersOk_next ?_) (answersOk_ite (answersOk_next ?_) (answersOk_ite (answersOk_next ?_)
    (answersOk_ite (answersOk_next ?_) (answersOk_unlisted s))))
  · exact taskOk_toPc (s := setProg _ s) (h.of_controls rfl) hop (by split <;> rfl)
  · exact taskOk_toPc (s := setProg _ s) (h.of_controls rfl) hop rfl
  · exact Working.finished (h.of_controls rfl) (by decide)
  · exact Working.finished (h.of_controls rfl) (by decide)

theorem answersOk_longaddrWriteOk (h : Working s.prog) (hop : s.prog.seqOp = some .longaddrWrite) :
    AnswersOk (longaddrWriteOk s) := by
  have goTo {pc : BitVec 3} (hpc : pcListed .longaddrWrite pc = true) : AnswersOk (.next (toPc pc s)) :=
    answersOk_next (taskOk_toPc h hop hpc)
  have done : AnswersOk (.next (finish resSuccess s)) := answersOk_next (h.finished (by decide))
  unfold longaddrWriteOk
  exact answersOk_ite (goTo rfl) (answersOk_ite (goTo rfl) (answersOk_ite done (answersOk_ite (goTo rfl)
    (answersOk_ite done (answersOk_unlisted s)))))

theorem answersOk_seqResult {r : ByteRes} {v : Byte} (h : Working s.prog) : AnswersOk (seqResult r v s) := by
  have none := answersOk_unlisted s
  have ends {code : Byte} (hc : code.toNat ≤ 0x0B) : AnswersOk (.next (finish code s)) :=
    answersOk_next (h.finished hc)
  have reads : AnswersOk (.next (readResult r v s)) := answersOk_next (taskOk_readResult h r v)
  have writes : AnswersOk (.next (writeResult r s)) := answersOk_next (taskOk_writeResult h r)
  rcases hop : s.prog.seqOp with _ | op <;> simp only [seqResult, hop]
  · exact none
  cases op
  case regRead | directRead => exact answersOk_ite reads none
  case regWrite | directWrite => exact answersOk_ite writes none
  case pagedRead =>
    exact answersOk_ite (answersOk_next (taskOk_pagedResult0 h hop rfl r)) (answersOk_ite reads none)
  case pagedWrite =>
    exact answersOk_ite (answersOk_next (taskOk_pagedResult0 h hop rfl r)) (answersOk_ite writes none)
  case bitWrite | queryBitcap => exact answersOk_ite (ends (by split <;> decide)) none
  case bitVerify =>
    refine answersOk_ite (answersOk_next ?_) none
    split <;> exact Working.finished (h.of_controls rfl) (by decide)
  case longaddrRead =>
    exact answersOk_ite (answersOk_longaddrReadOk h hop v) (answersOk_ite (ends (toNat_mapRes_le r)) none)
  case longaddrWrite =>
    exact answersOk_ite (answersOk_longaddrWriteOk h hop) (answersOk_ite (ends (by decide)) none)

theorem answersOk_seqStep (h : Working s.prog) (hb : s.prog.byteBusy = false) : AnswersOk (seqStep s) := by
  unfold seqStep
  exact answersOk_ite (answersOk_seqResult (h.setDone hb false)) (answersOk_seqIssue h)

end SequenceLayer

/-! ## `prog_step` (43_programmer R263, R264, R270, R272) -/

section ProgStep

variable {s : State}

theorem answersOk_layerStep (h : Working s.prog) : AnswersOk (layerStep s) := by
  have upper (hi : s.prog.innerState = .idle ∨ s.prog.innerState = .done) :
      AnswersOk (if s.prog.byteBusy then .next (byteStep s) else seqStep s) := by
    split
    next hb => exact answersOk_next (working_byteStep h hi hb).ok
    next hb => exact answersOk_seqStep h (Bool.eq_false_iff.mpr hb)
  cases hi : s.prog.innerState <;> simp only [layerStep, hi]
  case pre | cmd | wait | post => exact answersOk_next (working_innerStep h (by simp [hi])).ok
  case idle => exact upper (.inl hi)
  case done => exact upper (.inr hi)

/-- Supervision ends the task or lets it through. -/
theorem modeCheck_cases (s : State) :
    modeCheck s = s ∨ ∃ code, code.toNat ≤ 0x0B ∧ modeCheck s = { s with prog := finished code s.prog } := by
  unfold modeCheck
  split
  · exact .inr ⟨resShort, by decide, rfl⟩
  · split
    · exact .inr ⟨resGenError, by decide, rfl⟩
    · split
      · exact .inr ⟨resGenError, by decide, rfl⟩
      · exact .inl rfl

theorem progOk_modeCheck (h : ProgOk s.prog) (hs : s.prog.seqState ≠ .idle) :
    ProgOk (modeCheck s).prog ∧ (modeCheck s).prog.seqState ≠ .idle := by
  rcases modeCheck_cases s with hm | ⟨code, hc, hm⟩ <;> rw [hm]
  · exact ⟨h, hs⟩
  · exact ⟨h.finished hs hc, by simp [finished]⟩

/-- The registers as a task leaves its entry (43_programmer R270). -/
def entered (mode : RunMode) (g : Programmer) : Programmer :=
  { g with priorMode := mode, seqEntered := true, seqState := .step }

/-- The registers as a task is released (43_programmer R272). -/
def released (g : Programmer) : Programmer := { g with seqEntered := false, prBusy := false, seqState := .idle }

theorem enterStep_prog (s : State) : (enterStep s).prog = s.prog ∨ (enterStep s).prog = entered s.runMode s.prog := by
  unfold enterStep
  split
  · exact .inl rfl
  · simp only [pushSmq_eq]
    exact .inr rfl

theorem exitStep_prog (s : State) : (exitStep s).prog = s.prog ∨ (exitStep s).prog = released s.prog := by
  unfold exitStep
  split
  · split
    · exact .inr rfl
    · exact .inl rfl
  · exact .inr rfl

theorem ProgOk.entered {g : Programmer} (h : ProgOk g) (hs : g.seqState = .enter) (mode : RunMode) :
    ProgOk (entered mode g) := by
  obtain ⟨hb, hd, hi⟩ := h.1.rest (by simp [hs])
  have hne : g.seqState ≠ .idle := by simp [hs]
  exact progOk_of_rest hb hd hi (by simp [Machine.entered, h.1.busy.mpr hne]) (fun _ => h.1.pc hne)
    ⟨h.2.1, by simp [Machine.entered]⟩

theorem ProgOk.released {g : Programmer} (h : ProgOk g) (hs : g.seqState = .exit) : ProgOk (released g) := by
  obtain ⟨hb, hd, hi⟩ := h.1.rest (by simp [hs])
  exact progOk_of_rest hb hd hi (by simp [Machine.released]) (fun hne => absurd rfl hne)
    ⟨h.2.1, by simp [Machine.released]⟩

theorem answersOk_progAct (h : ProgOk s.prog) (hne : s.prog.seqState ≠ .idle) : AnswersOk (progAct s) := by
  cases hs : s.prog.seqState <;> simp only [progAct, hs]
  case idle => exact absurd hs hne
  case enter =>
    apply answersOk_next
    rcases enterStep_prog s with hg | hg <;> rw [hg]
    · exact ⟨h, fun hi => absurd hi hne⟩
    · exact ⟨h.entered hs _, fun hi => by cases hi⟩
  case exit =>
    apply answersOk_next
    rcases exitStep_prog s with hg | hg <;> rw [hg]
    · exact ⟨h, fun hi => absurd hi hne⟩
    · exact ⟨h.released hs, fun _ => h.2.2 hs⟩
  case step => exact answersOk_layerStep (h.working hs)

theorem progStep_of_idle (h : s.prog.seqState = .idle) : progStep s = .next s := by
  simp only [progStep, h]

theorem answersOk_progStep (h : ProgOk s.prog) (hne : s.prog.seqState ≠ .idle) : AnswersOk (progStep s) := by
  have supervised : AnswersOk (progAct (modeCheck s)) :=
    answersOk_progAct (progOk_modeCheck h hne).1 (progOk_modeCheck h hne).2
  cases hs : s.prog.seqState <;> simp only [progStep, hs]
  case idle => exact absurd hs hne
  case enter | step => exact supervised
  case exit => exact answersOk_progAct h hne

theorem progOk_progStep {t : State} (h : ProgOk s.prog) (ht : progStep s = .next t) : ProgOk t.prog := by
  by_cases hs : s.prog.seqState = .idle
  · rw [progStep_of_idle hs] at ht
    cases ht
    exact h
  · exact (answersOk_progStep h hs t ht).1

end ProgStep

/-! ## The commands (43_programmer R261, R287) -/

theorem pcListed_initialPc (p : Params) (op : TaskOp) (a : LocoAddr) : pcListed op (initialPc p op a) = true := by
  cases op
  case longaddrWrite =>
    unfold initialPc
    dsimp only
    split <;> rfl
  all_goals rfl

theorem progOk_startTask (op : TaskOp) (a : TaskArgs) (s : State) : ProgOk (startTask op a s).prog := by
  have hs : (startTask op a s).prog.seqState ≠ .idle ∧ (startTask op a s).prog.seqState ≠ .exit := by
    simp only [startTask, setProg_prog]
    split <;> simp
  exact progOk_of_rest rfl rfl rfl (iff_of_true rfl hs.1) (fun _ => ⟨op, rfl, pcListed_initialPc _ _ _⟩)
    ⟨.inr rfl, fun he => absurd he hs.2⟩

theorem ProgOk.terminateTask {g : Programmer} (h : ProgOk g) (hb : g.prBusy = true) : ProgOk (terminateTask g) := by
  have hne : g.seqState ≠ .idle := h.1.busy.mp hb
  have hcode : resTerminated.toNat ≤ 0x0B := by decide
  unfold Machine.terminateTask
  dsimp only
  split
  · exact progOk_of_rest rfl rfl rfl (by simp) (fun hne => absurd rfl hne) ⟨.inl hcode, by simp⟩
  · exact h.finished hne hcode

/-- With no task, a terminate writes the result alone (43_programmer R287). -/
theorem ProgOk.noTask {g : Programmer} (h : ProgOk g) : ProgOk { g with prResult := resNoTask } := by
  have hcode : resNoTask.toNat ≤ 0x0B := by decide
  exact ⟨⟨h.1.busy, h.1.byte, h.1.byteDone, h.1.inner, h.1.pc⟩, .inl hcode, fun _ => ne_resultNone hcode⟩

/-- What a command does to the programmer: nothing, a start of a task while none runs, or a terminate. -/
theorem exec_prog_cases {i : Instr} {s t : State} (h : exec i s = .next t) :
    t.prog = s.prog ∨
    (s.prog.prBusy = false ∧ ∃ op a, taskOf i = some op ∧ t.prog = (startTask op a s).prog) ∨
    (i = .progTerminate ∧ s.prog.prBusy = true ∧ t.prog = terminateTask s.prog) ∨
    (i = .progTerminate ∧ s.prog.prBusy = false ∧ t.prog = { s.prog with prResult := resNoTask }) := by
  cases hop : taskOf i with
  | some op =>
    obtain ⟨a, -, ha⟩ := exec_start hop s
    rw [ha, start] at h
    split at h
    next => cases h; exact .inl rfl
    next hb => cases h; exact .inr (.inl ⟨Bool.eq_false_iff.mpr hb, op, a, rfl, rfl⟩)
  | none =>
    by_cases hterm : i = .progTerminate
    case neg => exact .inl ((withinRule_exec h).prog hop hterm)
    subst hterm
    cases hb : s.prog.prBusy with
    | true =>
      rw [exec_progTerminate_of_busy hb] at h
      cases h
      exact .inr (.inr (.inl ⟨rfl, rfl, rfl⟩))
    | false =>
      rw [exec_progTerminate_of_noTask hb] at h
      cases h
      exact .inr (.inr (.inr ⟨rfl, rfl, rfl⟩))

theorem progOk_exec {i : Instr} {s t : State} (h : exec i s = .next t) (hs : ProgOk s.prog) : ProgOk t.prog := by
  rcases exec_prog_cases h with ht | ⟨-, op, a, -, ht⟩ | ⟨-, hb, ht⟩ | ⟨-, -, ht⟩ <;> rw [ht]
  · exact hs
  · exact progOk_startTask op a s
  · exact hs.terminateTask hb
  · exact hs.noTask

/-! ## The step (42_organizer R200, 20_memory R66) -/

/-- The command a `CORE` step takes from the port, if there is a legal one, acts on the programmer; an empty port or an
illegal word leaves it. -/
theorem runCommand_prog {s t : State} {w : Option CmdWord} (h : runCommand w s = .next t) :
    t.prog = s.prog ∨ ∃ x i, w = some x ∧ decode s.params.extFuncs x = .ok i ∧ exec i s = .next t := by
  unfold runCommand at h
  split at h
  next => cases h; exact .inl rfl
  next x =>
    split at h
    next => cases h; exact .inl rfl
    next i hi => exact .inr ⟨x, i, rfl, hi, h⟩

theorem coreDispatch_prog {s t : State} (h : coreDispatch s = .next t) : t.prog = s.prog := by
  rcases coreDispatch_cases (ok := False) h with ⟨-, rfl⟩ | ⟨-, hp, -⟩
  · rfl
  · exact hp

/-- What a step does to the programmer: a `CORE` step runs the command on the port and `prog_step`, every other
transition leaves it. -/
theorem step_prog_cases {s t : State} (h : step s = .next t) :
    t.prog = s.prog ∨
    ((nextEvent s).1 = .coreStep ∧ ∃ u a b : State, u.prog = s.prog ∧ u.params = s.params ∧
      runCommand s.cmd u = .next a ∧ progStep a = .next b ∧ t.prog = b.prog) := by
  have hframe := nextEvent_frame s
  have hu : (nextEvent s).2.prog = s.prog := by rw [hframe]
  by_cases hcore : (nextEvent s).1 = .coreStep
  · rw [step, hcore] at h
    obtain ⟨a, ha, h⟩ := andThen_eq_next.mp h
    obtain ⟨b, hb, ht⟩ := andThen_eq_next.mp h
    have hcmd : (nextEvent s).2.cmd = s.cmd := by rw [hframe]
    rw [hcmd] at ha
    exact .inr ⟨hcore, { (nextEvent s).2 with cmd := none }, a, b, hu, by rw [hframe], ha, hb, coreDispatch_prog ht⟩
  · left
    by_cases htick : (nextEvent s).1 = .encTick
    · rw [step, htick] at h
      cases h
      rw [encTick_frame]
      exact hu
    · rw [perform_environment_frame hcore htick h]
      exact hu

theorem progOk_runCommand {s t : State} {w : Option CmdWord} (h : runCommand w s = .next t) (hs : ProgOk s.prog) :
    ProgOk t.prog := by
  rcases runCommand_prog h with hp | ⟨x, i, -, -, hi⟩
  · exact hp ▸ hs
  · exact progOk_exec hi hs

/-- Settles O57: commands and `prog_step` keep the invariant, and no other part of a step touches the programmer. -/
theorem stepKeepsLayers : Obligations.StepKeepsLayers := by
  unfold Obligations.StepKeepsLayers
  intro s t hlayers hresult h
  rcases step_prog_cases h with ht | ⟨-, u, a, b, hu, -, ha, hb, ht⟩ <;> rw [ht]
  · exact ⟨hlayers, hresult⟩
  · exact progOk_progStep (progOk_runCommand ha (hu ▸ ⟨hlayers, hresult⟩)) hb

theorem LayersOk.idle {g : Programmer} (h : LayersOk g) (hb : g.prBusy = false) : g.seqState = .idle := by
  by_contra hs
  exact Bool.false_ne_true (hb.symm.trans (h.busy.mpr hs))

/-- A command sets `PR_BUSY` only as a start of a task. -/
theorem taskOf_of_exec_sets_busy {i : Instr} {s t : State} (h : exec i s = .next t) (h0 : s.prog.prBusy = false)
    (h1 : t.prog.prBusy = true) : ∃ op, taskOf i = some op := by
  rcases exec_prog_cases h with ht | ⟨-, op, -, hop, -⟩ | ⟨-, hb, -⟩ | ⟨-, -, ht⟩
  · simp [ht, h0] at h1
  · exact ⟨op, hop⟩
  · simp [h0] at hb
  · simp [ht, h0] at h1

/-- A command clears `PR_BUSY` only as a terminate, with its result. -/
theorem prResult_of_exec_clears_busy {i : Instr} {s t : State} (h : exec i s = .next t) (h1 : s.prog.prBusy = true)
    (h0 : t.prog.prBusy = false) : t.prog.prResult = resTerminated := by
  rcases exec_prog_cases h with ht | ⟨hb, -⟩ | ⟨-, -, ht⟩ | ⟨-, hb, -⟩
  · simp [ht, h1] at h0
  · simp [h1] at hb
  · rw [ht, terminateTask]
    dsimp only
    split <;> rfl
  · simp [h1] at hb

/-- Settles O58: `prog_step` does nothing in `S_IDLE`, so only a start sets `PR_BUSY`, and what clears it, a terminate
of an entering task or the release at the end of `prog_step`, leaves a result. -/
theorem taskCompletion : Obligations.TaskCompletion := by
  unfold Obligations.TaskCompletion
  intro s t hlayers hresult h
  have htok : ProgOk t.prog := stepKeepsLayers s t hlayers hresult h
  rcases step_prog_cases h with ht | ⟨hcore, u, a, b, hu, hp, ha, hb, ht⟩
  · exact ⟨fun h0 h1 => by simp [ht, h0] at h1, fun h1 h0 => by simp [ht, h1] at h0⟩
  have haok : ProgOk a.prog := progOk_runCommand ha (hu ▸ ⟨hlayers, hresult⟩)
  have hidle (hs : a.prog.prBusy = false) : t.prog = a.prog := by
    rw [progStep_of_idle (haok.1.idle hs)] at hb
    cases hb
    exact ht
  refine ⟨fun h0 h1 => ⟨hcore, ?_⟩, fun h1 h0 => ⟨hcore, ?_, htok.1.idle h0⟩⟩ <;> rw [← hu] at *
  · have ha1 : a.prog.prBusy = true := by
      by_contra ha0
      exact ha0 (hidle (Bool.eq_false_iff.mpr ha0) ▸ h1)
    rcases runCommand_prog ha with hkeep | ⟨w, i, hw, hi, hexec⟩
    · simp [hkeep, h0] at ha1
    · obtain ⟨op, hop⟩ := taskOf_of_exec_sets_busy hexec h0 ha1
      exact ⟨w, i, op, hw, hp ▸ hi, hop⟩
  · cases ha0 : a.prog.prBusy with
    | true =>
      exact ht ▸ (answersOk_progStep haok (haok.1.busy.mp ha0) b hb).2 (ht ▸ htok.1.idle h0)
    | false =>
      rcases runCommand_prog ha with hkeep | ⟨w, i, -, -, hexec⟩
      · simp [hkeep, h1] at ha0
      · rw [hidle ha0, prResult_of_exec_clears_busy hexec h1 ha0]
        decide

/-- While no task runs, a step whose word on the port is no task and no terminate leaves the programmer. -/
theorem step_keeps_idle_programmer {s t : State} (hlayers : LayersOk s.prog) (hb : s.prog.prBusy = false)
    (h : step s = .next t)
    (hcmd : ∀ w i, s.cmd = some w → decode s.params.extFuncs w = .ok i → taskOf i = none ∧ i ≠ .progTerminate) :
    t.prog = s.prog := by
  rcases step_prog_cases h with ht | ⟨-, u, a, b, hu, hp, ha, hstep, ht⟩
  · exact ht
  have hkeep : a.prog = s.prog := by
    rcases runCommand_prog ha with hkeep | ⟨w, i, hw, hi, hexec⟩
    · exact hkeep.trans hu
    · obtain ⟨hop, hterm⟩ := hcmd w i hw (hp ▸ hi)
      exact ((withinRule_exec hexec).prog hop hterm).trans hu
  rw [progStep_of_idle (hkeep ▸ hlayers.idle hb)] at hstep
  cases hstep
  exact ht.trans hkeep

theorem stProgStatus_eq (b : Bool) : stProgStatus b = if b then 0x91#8 else 0x90#8 := by
  cases b <;> rfl

/-- Settles O46: a step leaves an idle programmer, and the two readouts are the responses of their commands. -/
theorem statusAndValueRule : Obligations.StatusAndValueRule := by
  unfold Obligations.StatusAndValueRule
  refine ⟨fun s t hlayers hb h hcmd => ?_, fun s => ⟨?_, rfl⟩⟩
  · rw [step_keeps_idle_programmer hlayers hb h hcmd]
    exact ⟨rfl, rfl⟩
  · rw [← stProgStatus_eq]
    rfl

end Sys2Proof.Machine
end

section
/-! SUPPORT. Run-mode supervision (43_programmer R263), and the entry into and the exit from programming (R270,
R272). -/

namespace Sys2Proof.Machine

/-! ## Supervision (43_programmer R263, R264) -/

section Supervision

variable {s : State}

theorem progStep_of_exit (h : s.prog.seqState = .exit) : progStep s = .next (exitStep s) := by
  simp only [progStep, progAct, h]

theorem progStep_of_supervised (h : s.prog.seqState = .enter ∨ s.prog.seqState = .step) :
    progStep s = progAct (modeCheck s) := by
  rcases h with h | h <;> simp only [progStep, h]

/-- A task that supervision ends goes on to its exit step in the same call. -/
theorem progStep_of_ended {code : Byte} (h : s.prog.seqState = .enter ∨ s.prog.seqState = .step)
    (hm : modeCheck s = finish code s) : progStep s = .next (exitStep { s with prog := finished code s.prog }) := by
  rw [progStep_of_supervised h, hm]
  rfl

theorem progStep_of_enter (hs : s.prog.seqState = .enter) (hrun : isProg s.runMode = false)
    (hshort : s.runMode ≠ .runShort) : progStep s = .next (enterStep s) := by
  have hm : modeCheck s = s := by
    have hprog : s.runMode ≠ .progShort := by
      rintro h
      simp [h, isProg] at hrun
    simp [modeCheck, hs, hrun, hshort, hprog]
  rw [progStep_of_supervised (.inl hs), hm]
  simp only [progAct, hs]

/-- Settles O47, by what supervision answers in each state and run-mode. -/
theorem supervisionRule : Obligations.SupervisionRule := by
  unfold Obligations.SupervisionRule
  refine fun s h => ⟨fun hshort => progStep_of_ended h (if_pos hshort), fun hs hmode => ?_,
    fun hs hmode h1 h2 => ?_, progStep_of_enter, fun hs hmode => progStep_of_stepping ⟨hs, hmode⟩⟩
  · refine progStep_of_ended h ?_
    rcases hmode with hmode | hmode | hmode <;> simp [modeCheck, hs, hmode, isProg, resGenError]
  · refine progStep_of_ended h ?_
    simp [modeCheck, hs, hmode, h1, h2, resGenError]

end Supervision

/-! ## Entry and exit (43_programmer R265, R270, R272) -/

theorem smDrained_iff (s : State) :
    smDrained s = true ↔ s.smq.empty = true ∧ ¬ (s.mbxSrc = .smq ∧ s.mbxCnt ≠ 0) := by
  simp only [smDrained, Bool.and_eq_true, Bool.not_eq_true', Bool.and_eq_false_iff, beq_eq_false_iff_ne,
    bne_eq_false_iff_eq, not_and_or, ne_eq, not_not]

/-- Settles O48, state by state. -/
theorem entryAndExit : Obligations.EntryAndExit := by
  unfold Obligations.EntryAndExit
  dsimp only
  intro s
  rw [← smDrained_iff]
  refine ⟨fun hs hrun hshort => ?_, fun hs => ?_, progStep_of_idle⟩
  · rw [progStep_of_enter hs hrun hshort]
    refine ⟨fun hbusy => ?_, fun hfree q hq => ?_⟩
    · rw [enterStep, if_pos hbusy]
    · rw [enterStep, if_neg (by simp [hfree])]
      simp only [pushSmq, resetTimes, setProg, hq]
  · rw [progStep_of_exit hs]
    refine ⟨fun hprog hd => ?_, fun hprog hd => ?_, fun hrun => ?_⟩
    · rw [exitStep, if_pos hprog, if_neg hd]
    · rw [exitStep, if_pos hprog, if_pos hd]
      rfl
    · have hne : s.runMode ≠ .progOkay := by
        rintro h
        simp [h, isProg] at hrun
      simp [exitStep, hrun, exitRelease, setProg, hne]

end Sys2Proof.Machine
end

section
/-! SUPPORT. The acknowledgment input and the inner loop (43_programmer R266, R267), and the byte layer: the capability
phase, the single-packet operations, the bit probe and the scan (R273 to R279). -/

namespace Sys2Proof.Machine

/-! ## The acknowledgment (43_programmer R266) -/

theorem length_ackSamplesOf (n : Nat) (s : State) : (ackSamplesOf n s).length = n := by
  simp only [ackSamplesOf, List.length_append, List.length_take, List.length_map, List.length_range]
  omega

/-- The first coming sample, and those after it. -/
theorem ackSamplesOf_succ (n : Nat) (s : State) :
    ackSamplesOf (n + 1) s = (sampleAck s).1 :: ackSamplesOf n (sampleAck s).2 := by
  unfold sampleAck
  split
  next b rest h => simp [ackSamplesOf, h]
  next h =>
    simp only [ackSamplesOf, h, List.take_nil, List.nil_append, List.length_nil, Nat.sub_zero, List.range_succ_eq_map,
      List.map_cons, List.map_map, Nat.add_zero, List.cons.injEq, true_and]
    exact List.map_congr_left fun k _ => congrArg Config.freeAck (by simp only [Nat.succ_eq_add_one]; omega)

/-- A sample takes the first settled one, or else a free draw. -/
theorem sampleAck_snd (s : State) :
    (sampleAck s).2 = { s with ackIn := s.ackIn.drop 1, ackDraws := s.ackDraws + (1 - s.ackIn.length) } := by
  unfold sampleAck
  split
  next h => simp [h]
  next h => simp [h]

theorem countAcks_eq (n : Nat) (s : State) :
    countAcks n s = ((ackSamplesOf n s).count true,
      { s with ackIn := s.ackIn.drop n, ackDraws := s.ackDraws + (n - s.ackIn.length) }) := by
  induction n generalizing s with
  | zero => simp [countAcks, ackSamplesOf]
  | succ n ih =>
    have hdraws : s.ackDraws + (1 - s.ackIn.length) + (n - (s.ackIn.length - 1)) =
        s.ackDraws + (n + 1 - s.ackIn.length) := by omega
    have hcount (b : Bool) (l : List Bool) : (b :: l).count true = l.count true + b.toNat := by
      cases b <;> simp
    simp only [countAcks, ih, ackSamplesOf_succ, hcount, sampleAck_snd, List.drop_drop, List.length_drop, hdraws,
      Nat.add_comm 1 n]

theorem Params.ackThreshold_of_valid {p : Params} (h : p.valid = true) :
    p.ackSamples / 2 < p.ackThreshold ∧ p.ackThreshold ≤ p.ackSamples := by
  simp only [Params.valid, Bool.and_eq_true, decide_eq_true_eq] at h
  tauto

/-- Settles O50: a poll counts the ones among the coming samples. -/
theorem ackMajority : Obligations.AckMajority := by
  unfold Obligations.AckMajority
  refine fun s => ⟨length_ackSamplesOf _ s, ?_, ?_, Params.ackThreshold_of_valid⟩
  · simp only [ackPoll, countAcks_eq, decide_eq_true_eq]
  · simp only [ackPoll, countAcks_eq]

/-! ## The inner loop (43_programmer R267) -/

section InnerLoop

variable {s : State}

theorem innerPush_of_push {m : Message} {q : Ring} (st : InnerState) (h : s.smq.push m = some q) :
    innerPush m st s = { s with smq := q, prog := { s.prog with innerState := st } } := by
  simp only [innerPush, h, setProg]

theorem innerPush_of_full (m : Message) (st : InnerState) (h : s.smq.full = true) : innerPush m st s = s := by
  simp only [innerPush, Ring.push_eq_none.mpr h]

/-- An arm that pushes goes on, or stays where `SMQ` is full. -/
theorem progStep_of_innerPush {m : Message} {st : InnerState} (h : progStep s = .next (innerPush m st s)) :
    (∀ q, s.smq.push m = some q → progStep s = .next { s with smq := q, prog := { s.prog with innerState := st } }) ∧
    (s.smq.full = true → progStep s = .next s) := by
  rw [h]
  exact ⟨fun q hq => by rw [innerPush_of_push st hq], fun hf => by rw [innerPush_of_full m st hf]⟩

/-- It is the inner layer's turn (43_programmer R264). -/
theorem progStep_of_innerTurn (h : Stepping s) (hidle : s.prog.innerState ≠ .idle) (hdone : s.prog.innerState ≠ .done) :
    progStep s = .next (innerStep s) := by
  rw [progStep_of_stepping h]
  cases hi : s.prog.innerState
  case idle => exact absurd hi hidle
  case done => exact absurd hi hdone
  all_goals simp only [layerStep, hi]

theorem cycRow_eq (p : Params) (mode : ByteMode) :
    cycRow p mode = if mode = .direct then p.cycDirect else p.cycReg := by
  cases mode <;> rfl

/-- `I_WAIT`: the acknowledgment is kept once seen, and the arm goes on when it was seen or `SMQ` has drained. -/
theorem innerWait_eq (h : s.prog.innerState = .wait) :
    innerWait s = { (ackPoll s).2 with prog := { s.prog with
      innerAck := s.prog.innerAck || (ackPoll s).1
      innerState := if (s.prog.innerAck || (ackPoll s).1) = true ∨ smDrained s = true then .post else .wait } } := by
  obtain ⟨a, l, n, hpoll⟩ : ∃ a l n, ackPoll s = (a, { s with ackIn := l, ackDraws := n }) :=
    ⟨_, _, _, Prod.ext rfl (ackPoll_frame s)⟩
  have hdrained : smDrained { s with ackIn := l, ackDraws := n } = smDrained s := rfl
  have hstay : { s.prog with innerState := .wait } = s.prog := by rw [← h]
  simp only [innerWait, hpoll]
  cases a with
  | true => simp [setProg]
  | false =>
    by_cases hgo : s.prog.innerAck = true ∨ smDrained s = true
    · simp [setProg, hdrained, hgo]
    · simp [hdrained, hgo, hstay]

/-- Settles O49, arm by arm. -/
theorem innerLoopRule : Obligations.InnerLoopRule := by
  unfold Obligations.InnerLoopRule
  dsimp only
  refine ⟨fun s pkt wr => innerStart_eq pkt wr s, fun s h => ?_⟩
  have hturn {st : InnerState} (hi : s.prog.innerState = st) (hidle : st ≠ .idle) (hdone : st ≠ .done) :
      progStep s = .next (innerStep s) :=
    progStep_of_innerTurn h (hi ▸ hidle) (hi ▸ hdone)
  rw [← cycRow_eq]
  refine ⟨fun hi => ?_, fun hi => ?_, fun hi => ?_, fun hi => ?_⟩
  case refine_1 | refine_2 | refine_4 =>
    refine progStep_of_innerPush ?_
    rw [hturn hi nofun nofun, innerStep, hi]
    rfl
  · rw [hturn hi nofun nofun, innerStep, hi]
    simp only [innerWait_eq hi, smDrained_iff]

end InnerLoop

/-! ## The byte layer's step (43_programmer R273) -/

section ByteLayer

variable {s : State}

theorem byteStep_of_idle (h : s.prog.innerState = .idle) : byteStep s = byteIssue s := if_neg (by simp [h])

theorem byteStep_of_done (h : s.prog.innerState = .done) :
    byteStep s = byteResult s.prog.innerAck { s with prog := { s.prog with innerState := .idle } } := if_pos h

/-- The operation works in phases (43_programmer R277, R279). -/
def Phased (op : ByteOp) : Prop := op = .scanRead ∨ op = .readDirect ∨ op = .capProbe

theorem byteIssue_of_phased (h : Phased s.prog.byteOp) : byteIssue s = phaseIssue s := by
  rcases h with h | h | h <;> simp only [byteIssue, h]

theorem byteResult_of_phased (a : Bool) (h : Phased s.prog.byteOp) : byteResult a s = phaseResult a s := by
  rcases h with h | h | h <;> simp only [byteResult, h]

/-! ### The capability phase (43_programmer R274) -/

/-- The registers after `cap_decided(cap)` (43_programmer R274). -/
def capSettled (yes : Bool) (g : Programmer) : Programmer :=
  if g.byteOp = .capProbe then byteEnded (if yes then .ok else .noAck) g
  else { g with byteI := 0, byteAcc := 0, bytePh := if yes then .bits else .scan }

theorem capDecided_eq (yes : Bool) (s : State) : capDecided yes s = { s with prog := capSettled yes s.prog } := by
  by_cases h : s.prog.byteOp = .capProbe
  · simp only [capDecided, capSettled, h, if_true, byteFinish_eq]
  · rw [capSettled, if_neg h]
    unfold capDecided
    split
    · contradiction
    · rfl

theorem fresh_iff (s : State) (t0 : Millis) : fresh s t0 = true ↔ (s.clockMs - t0).toNat < s.params.cacheExpiryMs := by
  simp only [fresh, freshAt, decide_eq_true_eq]

theorem phaseIssue_of_cached (yes : Bool) (hp : s.prog.bytePh = .cap)
    (hc : s.prog.bitcap = if yes then .yes else .no) (hf : fresh s s.prog.bitcapT = true) :
    phaseIssue s = { s with prog := capSettled yes s.prog } := by
  have hne : s.prog.bitcap ≠ .unknown := by rw [hc]; cases yes <;> simp
  have hyes : (s.prog.bitcap == .yes) = yes := by rw [hc]; cases yes <;> rfl
  simp only [phaseIssue, hp, if_pos (And.intro hne hf), capDecided_eq, hyes]

theorem phaseIssue_of_probe (hp : s.prog.bytePh = .cap)
    (h : s.prog.bitcap = .unknown ∨ fresh s s.prog.bitcapT = false) :
    phaseIssue s = { s with prog := innerStarted (smVerifyBit 7 0 (s.prog.byteI.getLsbD 0)) false s.prog } := by
  have hn : ¬ (s.prog.bitcap ≠ .unknown ∧ fresh s s.prog.bitcapT = true) := by
    rintro ⟨hc, hf⟩
    rcases h with h | h
    · exact hc h
    · simp [h] at hf
  simp only [phaseIssue, hp, if_neg hn, innerStart_eq]

/-- Settles O51: what the phase issues from the cache or the probe, and what it makes of the two outcomes. -/
theorem capabilityProbeRule : Obligations.CapabilityProbeRule := by
  unfold Obligations.CapabilityProbeRule
  intro s hturn hph hop
  have hphased : Phased s.prog.byteOp := .inr hop
  rw [progStep_of_byteTurn hturn]
  dsimp only
  rw [← fresh_iff]
  refine ⟨fun hi hc hf => ?_, fun hi hc hf => ?_, fun hi hc => ?_, fun hi h0 => ?_, fun hi h0 => ?_⟩
  · rw [byteStep_of_idle hi, byteIssue_of_phased hphased, phaseIssue_of_cached true hph hc hf]
    rfl
  · rw [byteStep_of_idle hi, byteIssue_of_phased hphased, phaseIssue_of_cached false hph hc hf]
    rfl
  · rw [byteStep_of_idle hi, byteIssue_of_phased hphased, phaseIssue_of_probe hph (by simpa using hc)]
  · rw [byteStep_of_done hi, byteResult_of_phased _ (by exact hphased)]
    simp only [phaseResult, hph, capResult, h0, if_true]
    rfl
  · rw [byteStep_of_done hi, byteResult_of_phased _ (by exact hphased)]
    simp only [phaseResult, hph, capResult, h0, if_false, capDecided_eq]
    rfl

/-! ### Single-packet operations (43_programmer R269, R275) -/

/-- Settles O52, operation by operation. -/
theorem singlePacketOperations : Obligations.SinglePacketOperations := by
  unfold Obligations.SinglePacketOperations
  intro s hturn hop
  rw [progStep_of_byteTurn hturn]
  refine ⟨fun hi => ?_, fun hi => ?_⟩
  · rw [byteStep_of_idle hi]
    refine ⟨fun h hm => ?_, fun h hm => ?_, fun h => ?_, fun h => ?_⟩
    · simp only [byteIssue, h, hm, pktWrite, innerStart_eq]
    · simp only [byteIssue, h, hm, pktWrite, innerStart_eq]
    · simp only [byteIssue, h, innerStart_eq]
    · simp only [byteIssue, h, innerStart_eq]
  · rw [byteStep_of_done hi]
    rcases hop with h | h | h <;> simp only [byteResult, h, byteFinish_eq]

/-! ### Rounds of a phase -/

theorem byteStep_of_issue {pkt : Message} (hop : Phased s.prog.byteOp) (hi : s.prog.innerState = .idle)
    (h : phaseIssue s = innerStart pkt false s) : byteStep s = innerStart pkt false s := by
  rw [byteStep_of_idle hi, byteIssue_of_phased hop, h]

/-- One round: the packet the phase issues, and what the phase makes of its outcome. -/
theorem probeRound_of_issue {pkt : Message} (hop : Phased s.prog.byteOp) (hi : s.prog.innerState = .idle)
    (h : phaseIssue s = innerStart pkt false s) (a : Bool) : probeRound s a = phaseResult a { s with
      prog := { s.prog with innerPkt := pkt, innerWr := false, innerAck := a, innerState := .idle } } := by
  rw [probeRound, byteStep_of_issue hop hi h, byteStep_of_done (by rfl), byteResult_of_phased _ (by exact hop)]
  rfl

/-- The state between two rounds of a phase: the count at `i`, the byte read so far `acc`, and the inner operation that
came before. -/
def underway (pkt : Message) (wr ack : Bool) (i : BitVec 9) (acc : Byte) (s : State) : State :=
  { s with prog := { s.prog with
      innerPkt := pkt, innerWr := wr, innerAck := ack, innerState := .idle, byteI := i, byteAcc := acc } }

theorem phaseResult_of_bits (a : Bool) (h : s.prog.bytePh = .bits) : phaseResult a s = bitsResult a s := by
  rw [phaseResult, h]

theorem phaseResult_of_scan (a : Bool) (h : s.prog.bytePh = .scan) : phaseResult a s = scanResult a s := by
  rw [phaseResult, h]

/-- State `t` is `s` after rounds that have moved the count to `i` and the byte read so far to `acc`. -/
def Probing (s : State) (i : BitVec 9) (acc : Byte) (t : State) : Prop := ∃ pkt wr ack, t = underway pkt wr ack i acc s

theorem probing_refl (hi : s.prog.innerState = .idle) : Probing s s.prog.byteI s.prog.byteAcc s :=
  ⟨s.prog.innerPkt, s.prog.innerWr, s.prog.innerAck, by rw [underway, ← hi]⟩

theorem toNat_count {k : Nat} (hk : k < 512) : (BitVec.ofNat 9 k).toNat = k := by
  rw [BitVec.toNat_ofNat]
  omega

/-! ### The bit probe (43_programmer R278) -/

theorem phaseIssue_of_bit {k : Nat} (hp : s.prog.bytePh = .bits) (h : s.prog.byteI = BitVec.ofNat 9 k) (hk : k < 8) :
    phaseIssue s = innerStart (smVerifyBit s.prog.byteTgt (BitVec.ofNat 3 k) true) false s := by
  have hlt : s.prog.byteI.toNat < 8 := by rwa [h, toNat_count (by omega)]
  have hpos : s.prog.byteI.setWidth 3 = BitVec.ofNat 3 k := by rw [h, BitVec.setWidth_ofNat_of_le (by decide)]
  simp only [phaseIssue, hp, if_pos hlt, hpos]

theorem phaseIssue_of_byte (hp : s.prog.bytePh = .bits) (h : s.prog.byteI = 8) :
    phaseIssue s = innerStart (smVerifyByte s.prog.byteTgt s.prog.byteAcc) false s := by
  have hn : ¬ s.prog.byteI.toNat < 8 := by rw [h]; decide
  simp only [phaseIssue, hp, if_neg hn]

theorem probeRound_bit {k : Nat} (hop : Phased s.prog.byteOp) (hp : s.prog.bytePh = .bits)
    (hi : s.prog.innerState = .idle) (h : s.prog.byteI = BitVec.ofNat 9 k) (hk : k < 8) (a : Bool) :
    probeRound s a = underway (smVerifyBit s.prog.byteTgt (BitVec.ofNat 3 k) true) false a (BitVec.ofNat 9 (k + 1))
      (if a then s.prog.byteAcc ||| (1 <<< k) else s.prog.byteAcc) s := by
  have hn : s.prog.byteI.toNat = k := by rw [h, toNat_count (by omega)]
  rw [probeRound_of_issue hop hi (phaseIssue_of_bit hp h hk), phaseResult_of_bits _ (by exact hp), bitsResult,
    if_pos (by exact hn.trans_lt hk), BitVec.ofNat_add, ← h, ← hn]
  rfl

theorem probeRound_byte (hop : Phased s.prog.byteOp) (hp : s.prog.bytePh = .bits) (hi : s.prog.innerState = .idle)
    (h : s.prog.byteI = 8) (a : Bool) : probeRound s a = { s with
      prog := byteEnded (if a then .ok else .bitErr) { s.prog with
        innerPkt := smVerifyByte s.prog.byteTgt s.prog.byteAcc, innerWr := false, innerAck := a, innerState := .idle
        byteVal := if a then s.prog.byteAcc else s.prog.byteVal } } := by
  have hn : ¬ s.prog.byteI.toNat < 8 := by rw [h]; decide
  rw [probeRound_of_issue hop hi (phaseIssue_of_byte hp h), phaseResult_of_bits _ (by exact hp), bitsResult,
    if_neg (by exact hn)]
  cases a <;> rfl

/-- The low `k` bits of a byte: what `k` bit verifications have found. -/
def knownBits (v : Byte) (k : Nat) : Byte := v &&& BitVec.ofNat 8 (2 ^ k - 1)

theorem knownBits_succ (v : Byte) {k : Nat} (hk : k < 8) :
    knownBits v (k + 1) = if v.getLsbD k then knownBits v k ||| (1 <<< k) else knownBits v k := by
  revert v
  interval_cases k <;> decide

theorem knownBits_eight (v : Byte) : knownBits v 8 = v := BitVec.and_allOnes

/-- After `k` bit verifications the low `k` bits are known. -/
theorem probing_bits (v : Byte) (hop : Phased s.prog.byteOp) (hp : s.prog.bytePh = .bits)
    (hi : s.prog.innerState = .idle) (h0 : s.prog.byteI = 0) (hacc : s.prog.byteAcc = 0) (k : Nat) (hk : k ≤ 8) :
    Probing s (BitVec.ofNat 9 k) (knownBits v k)
      ((([0, 1, 2, 3, 4, 5, 6, 7].map v.getLsbD).take k).foldl probeRound s) := by
  induction k with
  | zero => simpa [h0, hacc, knownBits] using probing_refl hi
  | succ k ih =>
    have hlt : k < 8 := by omega
    have hbit : ([0, 1, 2, 3, 4, 5, 6, 7].map v.getLsbD)[k]? = some (v.getLsbD k) := by
      interval_cases k <;> rfl
    obtain ⟨pkt, wr, ack, ht⟩ := ih (by omega)
    have hround := probeRound_bit (s := underway pkt wr ack (BitVec.ofNat 9 k) (knownBits v k) s) hop hp rfl rfl hlt
      (v.getLsbD k)
    rw [List.take_add_one, hbit, List.foldl_append, ht, knownBits_succ v hlt]
    exact ⟨_, _, _, hround⟩

/-- Settles O53, by what is known after each bit verification. -/
theorem bitProbeReadsByte : Obligations.BitProbeReadsByte := by
  unfold Obligations.BitProbeReadsByte
  intro s v ok hop hp hi h0 hacc
  have hphased : Phased s.prog.byteOp := .inr (.inl hop)
  have known := probing_bits v hphased hp hi h0 hacc
  dsimp only
  obtain ⟨pkt, wr, ack, h8⟩ := known 8 le_rfl
  rw [knownBits_eight] at h8
  refine ⟨fun k hk => ?_, ?_, ?_⟩
  · obtain ⟨pkt, wr, ack, ht⟩ := known k hk.le
    have hissue := byteStep_of_issue (s := underway pkt wr ack (BitVec.ofNat 9 k) (knownBits v k) s) hphased rfl
      (phaseIssue_of_bit hp rfl hk)
    rw [ht, hissue]
    exact ⟨rfl, rfl, rfl⟩
  · have hissue := byteStep_of_issue (s := underway pkt wr ack 8 v s) hphased rfl (phaseIssue_of_byte hp rfl)
    rw [h8]
    exact congrArg (fun u => u.prog.innerPkt) hissue
  · have hround := probeRound_byte (s := underway pkt wr ack 8 v s) hphased hp rfl rfl ok
    rw [h8, hi]
    exact hround

/-! ### The scan (43_programmer R277) -/

theorem pktVerify_eq (mode : ByteMode) (c : CvAddr) (d : Byte) :
    pktVerify mode c d = if mode = .direct then smVerifyByte c d else smRegVerify (c.setWidth 3) d := by
  cases mode <;> rfl

/-- The packet that verifies candidate `i`. -/
def candidatePkt (i : BitVec 9) (s : State) : Message := pktVerify s.prog.byteMode s.prog.byteTgt (i.setWidth 8)

theorem phaseIssue_of_scan (hp : s.prog.bytePh = .scan) :
    phaseIssue s = innerStart (candidatePkt s.prog.byteI s) false s := by
  simp only [phaseIssue, hp, candidatePkt]

theorem probeRound_found (hop : Phased s.prog.byteOp) (hp : s.prog.bytePh = .scan) (hi : s.prog.innerState = .idle) :
    probeRound s true = { s with prog := byteEnded .ok { s.prog with
      innerPkt := candidatePkt s.prog.byteI s, innerWr := false, innerAck := true, innerState := .idle
      byteVal := s.prog.byteI.setWidth 8 } } := by
  rw [probeRound_of_issue hop hi (phaseIssue_of_scan hp), phaseResult_of_scan _ (by exact hp)]
  rfl

theorem probeRound_next (hop : Phased s.prog.byteOp) (hp : s.prog.bytePh = .scan) (hi : s.prog.innerState = .idle)
    (h : s.prog.byteI ≠ 255) : probeRound s false =
      underway (candidatePkt s.prog.byteI s) false false (s.prog.byteI + 1) s.prog.byteAcc s := by
  rw [probeRound_of_issue hop hi (phaseIssue_of_scan hp), phaseResult_of_scan _ (by exact hp), scanResult,
    if_neg Bool.false_ne_true, if_neg (by exact h)]
  rfl

theorem probeRound_exhausted (hop : Phased s.prog.byteOp) (hp : s.prog.bytePh = .scan) (hi : s.prog.innerState = .idle)
    (h : s.prog.byteI = 255) : probeRound s false = { s with prog := byteEnded .noDec { s.prog with
      innerPkt := candidatePkt 255 s, innerWr := false, innerAck := false, innerState := .idle } } := by
  rw [probeRound_of_issue hop hi (phaseIssue_of_scan hp), phaseResult_of_scan _ (by exact hp), scanResult,
    if_neg Bool.false_ne_true, if_pos (by exact h), ← h]
  rfl

/-- After `k` candidates without acknowledgment the scan stands at candidate `k`. -/
theorem probing_candidates (hop : Phased s.prog.byteOp) (hp : s.prog.bytePh = .scan)
    (hi : s.prog.innerState = .idle) (h0 : s.prog.byteI = 0) (k : Nat) (hk : k < 256) :
    Probing s (BitVec.ofNat 9 k) s.prog.byteAcc ((List.replicate k false).foldl probeRound s) := by
  induction k with
  | zero => simpa [h0] using probing_refl hi
  | succ k ih =>
    obtain ⟨pkt, wr, ack, ht⟩ := ih (by omega)
    have hne : BitVec.ofNat 9 k ≠ 255 := by
      intro h
      have hn := toNat_count (k := k) (by omega)
      rw [h] at hn
      simp at hn
      omega
    have hround := probeRound_next (s := underway pkt wr ack (BitVec.ofNat 9 k) s.prog.byteAcc s) hop hp rfl hne
    rw [List.replicate_succ', List.foldl_append, ht, BitVec.ofNat_add]
    exact ⟨_, _, _, hround⟩

/-- Settles O54, by where the scan stands after each candidate. -/
theorem scanReadsFirstAck : Obligations.ScanReadsFirstAck := by
  unfold Obligations.ScanReadsFirstAck
  intro s hop hp hi h0
  have hphased : Phased s.prog.byteOp := hop.imp_right .inl
  have stands := probing_candidates hphased hp hi h0
  dsimp only
  refine ⟨fun k hk => ?_, ?_⟩
  · obtain ⟨pkt, wr, ack, ht⟩ := stands k hk
    have hbyte : (BitVec.ofNat 9 k).setWidth 8 = BitVec.ofNat 8 k := BitVec.setWidth_ofNat_of_le (by decide) k
    have hissue := byteStep_of_issue (s := underway pkt wr ack (BitVec.ofNat 9 k) s.prog.byteAcc s) hphased rfl
      (phaseIssue_of_scan hp)
    have hround := probeRound_found (s := underway pkt wr ack (BitVec.ofNat 9 k) s.prog.byteAcc s) hphased hp rfl
    rw [ht, hissue, hround, ← pktVerify_eq, ← hbyte, hi]
    exact ⟨rfl, rfl, rfl⟩
  · obtain ⟨pkt, wr, ack, ht⟩ := stands 255 (by decide)
    have hround := probeRound_exhausted (s := underway pkt wr ack 255 s.prog.byteAcc s) hphased hp rfl rfl
    rw [List.replicate_succ' (n := 255), List.foldl_append, ht, ← pktVerify_eq, hi]
    exact hround

end ByteLayer

end Sys2Proof.Machine
end

section
/-! SUPPORT. The sequence layer (43_programmer R280 to R286, R289): what each task issues and what each result does. -/

namespace Sys2Proof.Machine

/-! ## Parts of CVs and addresses -/

theorem pageOf_eq (c : CvAddr) : pageOf c = BitVec.ofNat 8 (c.toNat / 4 + 1) := by
  apply BitVec.eq_of_toNat_eq
  simp [pageOf, Nat.shiftRight_eq_div_pow]

theorem pageReg_eq (c : CvAddr) : pageReg c = BitVec.ofNat 10 (c.toNat % 4) := by
  apply BitVec.eq_of_toNat_eq
  have := Nat.and_two_pow_sub_one_eq_mod c.toNat 2
  simp [pageReg] at *
  omega

theorem shiftRight_eq_ofNat (a : LocoAddr) : (a >>> 8).setWidth 8 = BitVec.ofNat 8 (a.toNat / 256) := by
  apply BitVec.eq_of_toNat_eq
  simp [Nat.shiftRight_eq_div_pow]

theorem setWidth_eq_ofNat (a : LocoAddr) : a.setWidth 8 = BitVec.ofNat 8 (a.toNat % 256) := by
  apply BitVec.eq_of_toNat_eq
  simp

theorem setWidth_and_eq_ofNat (a : LocoAddr) : a.setWidth 8 &&& 0x7F = BitVec.ofNat 8 (a.toNat % 128) := by
  apply BitVec.eq_of_toNat_eq
  have := Nat.and_two_pow_sub_one_eq_mod (a.toNat % 256) 7
  simp at *
  omega

theorem highPart_eq (v : Byte) : (v &&& 0x3F).setWidth 14 <<< 8 = BitVec.ofNat 14 (v.toNat % 64 * 256) := by
  revert v
  decide

theorem shortPart_eq (v : Byte) : (v &&& 0x7F).setWidth 16 = BitVec.ofNat 16 (v.toNat % 128) := by
  revert v
  decide

/-! ## A turn of the sequence layer (43_programmer R280) -/

/-- The state in which a waiting byte result has been taken. -/
def consumed (s : State) : State := { s with prog := { s.prog with byteDone := false } }

@[simp] theorem consumed_seqOp (s : State) : (consumed s).prog.seqOp = s.prog.seqOp := rfl
@[simp] theorem consumed_seqPc (s : State) : (consumed s).prog.seqPc = s.prog.seqPc := rfl

section Turn

variable {s : State}

theorem issues_of {g : Programmer} {t : State} (h : SeqTurn s) (hi : seqIssue s = .next t)
    (ht : t = { s with prog := g }) : Issues s g := by
  intro hd
  rw [progStep_of_seqTurn h, seqStep, if_neg (by simp [hd]), hi, ht]

/-- The turn starts a byte operation. -/
theorem issues_byteStart {op : ByteOp} {mode : ByteMode} {c : CvAddr} {d : Byte} {b : BitPos} {v : Bool} (h : SeqTurn s)
    (hi : seqIssue s = .next (byteStart op mode c d b v s)) : Issues s (byteStarted op mode c d b v s.prog) :=
  issues_of h hi rfl

theorem results_of {r : ByteRes} {g : Programmer → Programmer} {t : State} (h : SeqTurn s)
    (hr : seqResult r s.prog.byteVal (consumed s) = .next t) (ht : t = { s with prog := g (consumed s).prog }) :
    Results s r g := by
  rintro hd rfl
  rw [progStep_of_seqTurn h, seqStep, if_pos hd]
  exact hr.trans (congrArg _ ht)

theorem failsWith_of {g : Programmer → Programmer} {t : State} (h : SeqTurn s)
    (hr : ∀ r, r ≠ .ok → seqResult r s.prog.byteVal (consumed s) = .next t)
    (ht : t = { s with prog := g (consumed s).prog }) : FailsWith s g :=
  ⟨results_of h (hr _ (by simp)) ht, results_of h (hr _ (by simp)) ht, results_of h (hr _ (by simp)) ht⟩

theorem failsMapped_of (h : SeqTurn s)
    (hr : ∀ r, r ≠ .ok → seqResult r s.prog.byteVal (consumed s) = .next (finish (mapRes r) (consumed s))) :
    FailsMapped s :=
  ⟨results_of h (hr _ (by simp)) rfl, results_of h (hr _ (by simp)) rfl, results_of h (hr _ (by simp)) rfl⟩

theorem ends_of {yes no : Byte} (h : SeqTurn s) (hr : ∀ r v, seqResult r v (consumed s) =
    .next (finish (if r = .ok then yes else no) (consumed s))) :
    Results s .ok (finished yes) ∧ FailsWith s (finished no) :=
  ⟨results_of h (hr _ _) rfl,
    failsWith_of h (t := finish no (consumed s)) (fun r hne => by rw [hr, if_neg hne]) rfl⟩

theorem readEnds_of (h : SeqTurn s)
    (hr : ∀ r v, seqResult r v (consumed s) = .next (readResult r v (consumed s))) : ReadEnds s := by
  refine ⟨results_of h (hr _ _) rfl, failsMapped_of h fun r hne => (hr r _).trans ?_⟩
  cases r <;> simp_all [readResult]

theorem writeEnds_of (h : SeqTurn s) (hr : ∀ r v, seqResult r v (consumed s) = .next (writeResult r (consumed s))) :
    WriteEnds s := by
  refine ⟨results_of h (hr _ _) rfl, failsMapped_of h fun r hne => (hr r _).trans ?_⟩
  cases r <;> simp_all [writeResult]

/-! ## The page write (43_programmer R276, R281) -/

theorem pageHit_iff (s : State) (pg : Byte) : pageHit s pg = true ↔
    s.prog.pageValid = true ∧ s.prog.page = pg ∧ (s.clockMs - s.prog.pageT).toNat < s.params.cacheExpiryMs := by
  simp only [pageHit, Bool.and_eq_true, beq_iff_eq, fresh_iff, and_assoc]

/-- Step 0 of a paged task: the page write, skipped where the cache hits, and its result. -/
theorem pagedStep0 (h : SeqTurn s) (hi : seqIssue s = .next (pagedIssue0 s))
    (hr : ∀ r v, seqResult r v (consumed s) = .next (pagedResult0 r (consumed s))) :
    (pageHit s (pageOf s.prog.seqCv) = true → Issues s { s.prog with seqPc := 1 }) ∧
    (pageHit s (pageOf s.prog.seqCv) = false →
      Issues s (byteStarted .writeByte .reg 5 (pageOf s.prog.seqCv) 0 false s.prog)) ∧
    Results s .ok (fun r =>
      { r with pageValid := true, page := pageOf s.prog.seqCv, pageT := s.clockMs, seqPc := 1 }) ∧
    FailsWith s (fun r => finished 0x07 { r with pageValid := false }) := by
  refine ⟨fun hhit => issues_of h hi ?_, fun hmiss => issues_of h hi ?_, results_of h (hr _ _) rfl,
    failsWith_of h (fun r hne => (hr r _).trans ?_) rfl⟩
  · rw [pagedIssue0, if_pos hhit]
    rfl
  · rw [pagedIssue0, if_neg (by simp [hmiss])]
    rfl
  · cases r
    case ok => exact absurd rfl hne
    all_goals rfl

/-! ## The tasks (43_programmer R280 to R286) -/

/-- Settles O55, task by task. -/
theorem shortTasks : Obligations.ShortTasks := by
  unfold Obligations.ShortTasks
  intro s h
  dsimp only
  rw [← pageOf_eq, ← pageReg_eq, ← pageHit_iff, Bool.not_eq_true]
  refine ⟨fun hpc hop => ?_, fun hpc hop => ?_, fun hpc hop => ?_, fun hpc hop => ?_, fun hpc hop => ?_,
    fun hpc hop => ?_, fun hpc hop => ?_, fun hpc hop => ?_, fun hpc hop => ?_, fun hpc hop => ?_⟩
  case refine_1 | refine_4 | refine_6 =>
    exact ⟨issues_byteStart h (by simp [seqIssue, hop, hpc]), readEnds_of h fun r v => by simp [seqResult, hop, hpc]⟩
  case refine_2 =>
    refine ⟨issues_of h (t := byteStart .writeByte .reg (s.prog.seqReg.setWidth 10) s.prog.seqData 0 false
      (setProg (fun g => { g with pageValid := false }) s)) ?_ rfl, writeEnds_of h fun r v => ?_⟩
    · simp [seqIssue, hop, hpc]
    · simp [seqResult, hop, hpc]
  case refine_5 | refine_7 =>
    exact ⟨issues_byteStart h (by simp [seqIssue, hop, hpc]), writeEnds_of h fun r v => by simp [seqResult, hop, hpc]⟩
  case refine_3 =>
    rcases hop with hop | hop <;>
      exact pagedStep0 h (by simp [seqIssue, hop, hpc]) fun r v => by simp [seqResult, hop, hpc]
  case refine_8 =>
    exact ⟨issues_byteStart h (by simp [seqIssue, hop, hpc]), ends_of (yes := resSuccess) (no := resNoAck) h
      fun r v => by simp [seqResult, hop, hpc]⟩
  case refine_9 =>
    refine ⟨issues_byteStart h ?_, results_of h (t := finish resSuccess (setValue 1 (consumed s))) ?_ rfl,
      failsWith_of h (t := finish resNoAck (setValue 0 (consumed s))) (fun r hne => ?_) rfl⟩
    · simp [seqIssue, hop, hpc]
    · simp [seqResult, hop, hpc]
    · simp [seqResult, hop, hpc, hne]
  case refine_10 =>
    exact ⟨issues_byteStart h (by simp [seqIssue, hop, hpc]), ends_of (yes := resCapPos) (no := resCapNeg) h
      fun r v => by simp [seqResult, hop, hpc]⟩

/-- A step of a long-address read: the CV it reads, and what a value does (43_programmer R284). -/
theorem longaddrReadStep {c : CvAddr} {g : Programmer → Programmer} {t : State} {pc : BitVec 3} (h : SeqTurn s)
    (hop : s.prog.seqOp = some .longaddrRead) (hpc : s.prog.seqPc = pc) (hlists : longaddrReadLists pc = true)
    (hi : seqIssue s = .next (readCv c s)) (hok : longaddrReadOk s.prog.byteVal (consumed s) = .next t)
    (ht : t = { s with prog := g (consumed s).prog }) :
    Issues s (byteStarted .readDirect .direct c 0 0 false s.prog) ∧ FailsMapped s ∧ Results s .ok g :=
  ⟨issues_byteStart h hi, failsMapped_of h fun r hne => by simp [seqResult, hop, hpc, hlists, hne],
    results_of h (by simpa [seqResult, hop] using hok) ht⟩

/-- A step of a long-address write: what it writes, and where it goes on (43_programmer R285). -/
theorem longaddrWriteStep {op : ByteOp} {c : CvAddr} {d : Byte} {b : BitPos} {v : Bool} {g : Programmer → Programmer}
    {t : State} {pc : BitVec 3} (h : SeqTurn s) (hop : s.prog.seqOp = some .longaddrWrite) (hpc : s.prog.seqPc = pc)
    (hlists : longaddrWriteLists pc = true) (hi : seqIssue s = .next (byteStart op .direct c d b v s))
    (hok : longaddrWriteOk (consumed s) = .next t) (ht : t = { s with prog := g (consumed s).prog }) :
    Issues s (byteStarted op .direct c d b v s.prog) ∧ FailsWith s (finished 0x02) ∧ Results s .ok g := by
  refine ⟨issues_byteStart h hi, failsWith_of h (t := finish resNoAck (consumed s)) (fun r hne => ?_) rfl,
    results_of h (by simpa [seqResult, hop] using hok) ht⟩
  simp [seqResult, hop, hpc, hlists, hne]

/-- Settles O56, step by step. -/
theorem longAddressTasks : Obligations.LongAddressTasks := by
  unfold Obligations.LongAddressTasks
  refine ⟨fun _ _ => rfl, fun s h => ?_⟩
  dsimp only
  rw [← highPart_eq, ← shortPart_eq, ← shiftRight_eq_ofNat, ← setWidth_eq_ofNat, ← setWidth_and_eq_ofNat]
  refine ⟨fun hop => ⟨fun hpc => ?_, fun hpc => ?_, fun hpc => ?_, fun hpc => ?_⟩,
    fun hop => ⟨fun hpc => ?_, fun hpc => ?_, fun hpc => ?_, fun hpc => ?_, fun hpc => ?_⟩⟩
  · refine longaddrReadStep h hop hpc rfl (by simp [seqIssue, hop, hpc])
      (t := toPc (if s.prog.byteVal.getLsbD 5 then 1 else 3)
        (setProg (fun g => { g with seqTmp := s.prog.byteVal }) (consumed s))) ?_ rfl
    simp [longaddrReadOk, hpc]
  · refine longaddrReadStep h hop hpc rfl (by simp [seqIssue, hop, hpc])
      (t := toPc 2
        (setProg (fun g => { g with seqAddr := (s.prog.byteVal &&& 0x3F).setWidth 14 <<< 8 }) (consumed s))) ?_ rfl
    simp [longaddrReadOk, hpc]
  · refine longaddrReadStep h hop hpc rfl (by simp [seqIssue, hop, hpc])
      (t := finish resSuccess
        (setValue ((consumed s).prog.seqAddr.setWidth 16 ||| s.prog.byteVal.setWidth 16) (consumed s))) ?_ rfl
    simp [longaddrReadOk, hpc]
  · refine longaddrReadStep h hop hpc rfl (by simp [seqIssue, hop, hpc])
      (t := finish resSuccess (setValue ((s.prog.byteVal &&& 0x7F).setWidth 16) (consumed s))) ?_ rfl
    simp [longaddrReadOk, hpc]
  · exact longaddrWriteStep h hop hpc rfl (by simp [seqIssue, hop, hpc])
      (t := toPc 1 (consumed s)) (by simp [longaddrWriteOk, hpc]) rfl
  · exact longaddrWriteStep h hop hpc rfl (by simp [seqIssue, hop, hpc])
      (t := toPc 2 (consumed s)) (by simp [longaddrWriteOk, hpc]) rfl
  · exact longaddrWriteStep h hop hpc rfl (by simp [seqIssue, hop, hpc])
      (t := finish resSuccess (consumed s)) (by simp [longaddrWriteOk, hpc]) rfl
  · exact longaddrWriteStep h hop hpc rfl (by simp [seqIssue, hop, hpc])
      (t := toPc 5 (consumed s)) (by simp [longaddrWriteOk, hpc]) rfl
  · exact longaddrWriteStep h hop hpc rfl (by simp [seqIssue, hop, hpc])
      (t := finish resSuccess (consumed s)) (by simp [longaddrWriteOk, hpc]) rfl

end Turn

end Sys2Proof.Machine
end

section
/-! SUPPORT. Why a step does not stop: in a listed `SEQ_PC` the sequence layer answers, with legal message sizes the
selection answers, so a `CORE` step answers from every state that meets the invariants (60_exceptions R320, R321). -/

namespace Sys2Proof.Machine

/-! ## `prog_step` answers (43_programmer R264, 93_implementation_defined I9) -/

/-- A task is loaded, and its `SEQ_PC` is one it lists: what `LayersOk` says of a task in flight. -/
def Listed (g : Programmer) : Prop := ∃ op, g.seqOp = some op ∧ pcListed op g.seqPc = true

/-- A guarded next state answers where its alternative does. -/
theorem answers_ite_next {c : Prop} [Decidable c] {u : State} {o : Result} (h : ¬ c → ∃ t, o = .next t) :
    ∃ t, (if c then .next u else o) = .next t := by
  split
  next => exact ⟨u, rfl⟩
  next hc => exact h hc

/-! ### A step of each list of `SEQ_PC` values meets a guard of its row -/

section Guards

variable {pc : BitVec 3} {o : Result}

theorem answers_of_pagedLists (h : (pc == 0 || pc == 1) = true) (a b : State) :
    ∃ t, (if pc = 0 then .next a else if pc = 1 then .next b else o) = .next t := by
  have hpc : pc = 0 ∨ pc = 1 := by simpa only [Bool.or_eq_true, beq_iff_eq] using h
  exact answers_ite_next fun _ => answers_ite_next fun _ => by tauto

theorem answers_of_longaddrReadLists (h : longaddrReadLists pc = true) (a b c d : State) :
    ∃ t, (if pc = 0 then .next a else if pc = 1 then .next b else if pc = 2 then .next c
      else if pc = 3 then .next d else o) = .next t := by
  have hpc : ((pc = 0 ∨ pc = 1) ∨ pc = 2) ∨ pc = 3 := by
    simpa only [longaddrReadLists, Bool.or_eq_true, beq_iff_eq] using h
  exact answers_ite_next fun _ => answers_ite_next fun _ => answers_ite_next fun _ => answers_ite_next fun _ => by
    tauto

theorem answers_of_longaddrWriteLists (h : longaddrWriteLists pc = true) (a b c d e : State) :
    ∃ t, (if pc = 0 then .next a else if pc = 1 then .next b else if pc = 2 then .next c
      else if pc = 4 then .next d else if pc = 5 then .next e else o) = .next t := by
  have hpc : (((pc = 0 ∨ pc = 1) ∨ pc = 2) ∨ pc = 4) ∨ pc = 5 := by
    simpa only [longaddrWriteLists, Bool.or_eq_true, beq_iff_eq] using h
  exact answers_ite_next fun _ => answers_ite_next fun _ => answers_ite_next fun _ => answers_ite_next fun _ =>
    answers_ite_next fun _ => by tauto

end Guards

section ProgStep

variable {s : State}

theorem seqIssue_answers (h : Listed s.prog) : ∃ t, seqIssue s = .next t := by
  obtain ⟨op, hop, hpc⟩ := h
  cases op <;> simp only [seqIssue, hop]
  case regRead | regWrite | directRead | directWrite | bitWrite | bitVerify | queryBitcap =>
    exact ⟨_, if_pos (beq_iff_eq.mp hpc)⟩
  case pagedRead | pagedWrite => exact answers_of_pagedLists hpc _ _
  case longaddrRead => exact answers_of_longaddrReadLists hpc _ _ _ _
  case longaddrWrite => exact answers_of_longaddrWriteLists hpc _ _ _ _ _

theorem seqResult_answers (r : ByteRes) (v : Byte) (h : Listed s.prog) : ∃ t, seqResult r v s = .next t := by
  obtain ⟨op, hop, hpc⟩ := h
  cases op <;> simp only [seqResult, hop]
  case regRead | regWrite | directRead | directWrite | bitWrite | bitVerify | queryBitcap =>
    exact ⟨_, if_pos (beq_iff_eq.mp hpc)⟩
  case pagedRead | pagedWrite => exact answers_of_pagedLists hpc _ _
  case longaddrRead =>
    split
    · exact answers_of_longaddrReadLists hpc _ _ _ _
    · exact ⟨_, if_pos hpc⟩
  case longaddrWrite =>
    split
    · exact answers_of_longaddrWriteLists hpc _ _ _ _ _
    · exact ⟨_, if_pos hpc⟩

theorem seqStep_answers (h : Listed s.prog) : ∃ t, seqStep s = .next t := by
  unfold seqStep
  split
  · exact seqResult_answers _ _ (s := setProg _ s) h
  · exact seqIssue_answers h

theorem layerStep_answers (h : Listed s.prog) : ∃ t, layerStep s = .next t := by
  cases hi : s.prog.innerState <;> simp only [layerStep, hi]
  case pre | cmd | wait | post => exact ⟨_, rfl⟩
  case idle | done => exact answers_ite_next fun _ => seqStep_answers h

theorem progAct_answers (h : s.prog.seqState = .step → Listed s.prog) : ∃ t, progAct s = .next t := by
  cases hs : s.prog.seqState <;> simp only [progAct, hs]
  case idle | enter | exit => exact ⟨_, rfl⟩
  case step => exact layerStep_answers (h hs)

/-- Supervision leaves the task and its `SEQ_PC`. -/
theorem listed_modeCheck (h : Listed s.prog) : Listed (modeCheck s).prog := by
  rcases modeCheck_cases s with hm | ⟨code, -, hm⟩ <;> rw [hm] <;> exact h

/-- `prog_step` stops nowhere while a task in flight is in a step it lists. -/
theorem progStep_answers (h : LayersOk s.prog) : ∃ t, progStep s = .next t := by
  have listed (hs : s.prog.seqState ≠ .idle) : Listed s.prog := h.pc hs
  cases hs : s.prog.seqState <;> simp only [progStep, hs]
  case idle => exact ⟨s, rfl⟩
  case enter | step => exact progAct_answers fun _ => listed_modeCheck (listed (by simp [hs]))
  case exit => exact progAct_answers fun hstep => by simp [hs] at hstep

end ProgStep

/-! ## The commands keep the layers nested (43_programmer R261, R287) -/

/-- Nested layers stay nested under any result: no layer's place depends on it. -/
theorem LayersOk.setResult {g : Programmer} (h : LayersOk g) (code : Byte) : LayersOk { g with prResult := code } :=
  ⟨h.busy, h.byte, h.byteDone, h.inner, h.pc⟩

/-- A terminate overwrites the result, so it keeps the layers nested whatever the result was. -/
theorem LayersOk.terminateTask {g : Programmer} (h : LayersOk g) (hb : g.prBusy = true) :
    LayersOk (terminateTask g) := by
  have hcode : resSuccess.toNat ≤ 0x0B := by decide
  have hok : ProgOk { g with prResult := resSuccess } :=
    ⟨h.setResult _, .inl hcode, fun _ => ne_resultNone hcode⟩
  exact (hok.terminateTask hb).1

theorem layersOk_exec {i : Instr} {s t : State} (h : exec i s = .next t) (hs : LayersOk s.prog) : LayersOk t.prog := by
  rcases exec_prog_cases h with ht | ⟨-, op, a, -, ht⟩ | ⟨-, hb, ht⟩ | ⟨-, -, ht⟩ <;> rw [ht]
  · exact hs
  · exact (progOk_startTask op a s).1
  · exact hs.terminateTask hb
  · exact hs.setResult _

theorem layersOk_runCommand {s t : State} {w : Option CmdWord} (h : runCommand w s = .next t) (hs : LayersOk s.prog) :
    LayersOk t.prog := by
  rcases runCommand_prog h with hp | ⟨x, i, -, -, hi⟩
  · exact hp ▸ hs
  · exact layersOk_exec hi hs

/-! ## The selection answers (42_organizer R201) -/

section Selection

variable {s : State}

theorem exists_head_of_not_withheld {q : Ring} (h : ¬ Withheld s q) : ∃ m, q.head = some m ∧ Differs s m := by
  simpa [Withheld] using h

theorem dispatchProg_answers (hfree : s.mbxCnt = 0) (hs : SizesOk s) : ∃ t, dispatchProg s = .next t := by
  cases hm : s.smq.head with
  | none => exact ⟨_, dispatchProg_of_empty hfree hm⟩
  | some m => exact ⟨_, dispatchProg_of_head hfree (hs.smq m (Ring.head_mem hm)) hm⟩

theorem dispatchRefresh_answers (hfree : s.mbxCnt = 0) : ∃ t, dispatchRefresh s = .next t := by
  obtain ⟨hsent, hidle⟩ := dispatchRefresh_cases hfree rfl
  by_cases hd : Differs s (refreshNext s).1
  · exact ⟨_, hsent hd⟩
  · exact ⟨_, hidle hd⟩

theorem dispatchRepeat_answers (hfree : s.mbxCnt = 0) (hs : SizesOk s) : ∃ t, dispatchRepeat s = .next t := by
  cases hj : rptSelect s.rpt with
  | none => exact dispatchRepeat_of_none hj ▸ dispatchRefresh_answers hfree
  | some j =>
    cases he : s.rpt[j]? with
    | none =>
      simp only [dispatchRepeat, hj, he]
      exact dispatchRefresh_answers hfree
    | some e =>
      obtain ⟨hsent, hheld⟩ := dispatchRepeat_of_selected hj he hfree
      by_cases hd : Differs s e.msg
      · exact ⟨_, hsent hd (hs.rpt e (List.mem_of_getElem? he))⟩
      · exact hheld hd ▸ dispatchRefresh_answers hfree

theorem dispatchLow_answers (hfree : s.mbxCnt = 0) (hs : SizesOk s) : ∃ t, dispatchLow s = .next t := by
  by_cases hheld : Withheld s s.lpq
  · exact dispatchLow_of_withheld hheld ▸ dispatchRepeat_answers hfree hs
  · obtain ⟨m, hm, hd⟩ := exists_head_of_not_withheld hheld
    exact ⟨_, dispatchLow_of_head hfree (hs.lpq m (Ring.head_mem hm)) hd hm⟩

theorem dispatchRun_answers (hfree : s.mbxCnt = 0) (hs : SizesOk s) : ∃ t, dispatchRun s = .next t := by
  by_cases hheld : Withheld s s.hpq
  · exact dispatchRun_of_withheld hheld ▸ dispatchLow_answers hfree hs
  · obtain ⟨m, hm, hd⟩ := exists_head_of_not_withheld hheld
    exact ⟨_, dispatchRun_of_head hfree (hs.hpq m (Ring.head_mem hm)) hd hm⟩

/-- The dispatch stops nowhere while every waiting message has a legal size. -/
theorem coreDispatch_answers (hs : SizesOk s) : ∃ t, coreDispatch s = .next t := by
  unfold coreDispatch organizerDispatch
  split
  next hfree =>
    split
    · exact dispatchProg_answers hfree hs
    · exact dispatchRun_answers hfree hs
  next => exact ⟨s, rfl⟩

end Selection

/-! ## The whole step (42_organizer R200, 60_exceptions R321) -/

/-- The command and `prog_step` keep the sizes legal, so that the dispatch of the same `CORE` step finds them so. -/
theorem sizesOk_beforeDispatch {s a b : State} (hclock : ClockBuilderOk s)
    (ha : runCommand s.cmd { s with cmd := none } = .next a) (hb : progStep a = .next b) (hs : SizesOk s) :
    SizesOk b := by
  have hport : SizesOk { s with cmd := none } := ⟨hs.smq, hs.hpq, hs.lpq, hs.rpt, hs.inner⟩
  obtain ⟨c, hc, hmode⟩ := (coreWrites_runCommand (ok := True) (fun _ => hclock) ha).trans_prog (progWrites_progStep hb)
  have hsc : SizesOk c := hc.keeps (fun _ _ => SizesOk.write trivial) hport
  rcases hmode with rfl | hw
  · exact hsc
  · exact hsc.of_same hw.same

/-- From a state that meets the invariants, a `CORE` step answers a next state. -/
theorem coreStep_answers {s : State} (hlayers : LayersOk s.prog) (hs : SizesOk s) (hclock : ClockBuilderOk s) :
    ∃ t, coreStep s = .next t := by
  obtain ⟨a, ha⟩ := runCommand_answers s.cmd { s with cmd := none }
  obtain ⟨b, hb⟩ := progStep_answers (layersOk_runCommand ha hlayers)
  obtain ⟨t, ht⟩ := coreDispatch_answers (sizesOk_beforeDispatch hclock ha hb hs)
  exact ⟨t, by rw [coreStep, ha, andThen_next, afterCommand, hb, andThen_next, ht]⟩

theorem writeRunMode_eq_fault {c : BitVec 4} {s : State} {f : Fault} (h : writeRunMode c s = .fault f) :
    9 ≤ c.toNat ∧ f = .badRunMode c := by
  unfold writeRunMode at h
  split at h
  next => cases h
  next hnone =>
    cases h
    exact ⟨by simpa [modeOfCode] using hnone, rfl⟩

/-- Settles O18: of the transitions that can stop, the `CORE` step answers under the invariants, which leaves the write
of the run-mode. -/
theorem faultsOnlyFromEnvironment : Obligations.FaultsOnlyFromEnvironment := by
  unfold Obligations.FaultsOnlyFromEnvironment
  intro s f hlayers hs hclock h
  unfold step at h
  cases he : (nextEvent s).1 with rw [he] at h
  | statusWrite c =>
    obtain ⟨hc, hf⟩ := writeRunMode_eq_fault h
    exact ⟨c, hc, hf, rfl⟩
  | coreStep =>
    have hframe := nextEvent_frame s
    obtain ⟨t, ht⟩ := coreStep_answers (s := (nextEvent s).2) (by rw [hframe]; exact hlayers)
      (by rw [hframe]; exact ⟨hs.smq, hs.hpq, hs.lpq, hs.rpt, hs.inner⟩) (by rw [hframe]; exact hclock)
    cases ht.symm.trans h
  | encTick | hostOffer | cutoutInput | clockAdvance => cases h

end Sys2Proof.Machine
end

section
/-! SUPPORT. The reset column of the state (70_reset R350, 10_state R22 to R38). -/

namespace Sys2Proof.Machine

/-- Settles O8, element by element: `State.resetWith` writes each value as a constant or takes it from one parameter, so
every equation holds by definition. -/
theorem resetValues : Obligations.ResetValues := by
  unfold Obligations.ResetValues
  refine ⟨rfl, fun p => ?_⟩
  exact
    ⟨rfl, rfl, -- parameters, run-mode (10_state R20, R22)
      rfl, rfl, rfl, rfl, -- mailbox and encoder (R25, R26)
      rfl, rfl, rfl, rfl, rfl, -- queues, repeat buffer and locomotive table (R30 to R33)
      rfl, rfl, rfl, rfl, -- refresh scheduler and `LAST` (R34, R35)
      rfl, rfl, rfl⟩ -- programmer, command port and response (R36 to R38)

end Sys2Proof.Machine
end
